-- ==== Sys2Proof/Syntax.lean ====
section
/-! DEFINITION. The instructions of CORE: the nine commands of 30_encoding.md R76. A command has no operand fields
and no immediates (R78, R79), so no constructor has an argument. -/

namespace Sys2Proof

/-- One constructor for each row of spec/opcode_table.json. -/
inductive Instr where
  /-- PAD, 40_padding_xor.md R105. -/
  | pad
  /-- UNPAD, 40_padding_xor.md R106. -/
  | unpad
  /-- XOR, 40_padding_xor.md R107. -/
  | xor
  /-- CBC_ENC, 41_cbc.md R123. -/
  | cbcEnc
  /-- CBC_DEC, 41_cbc.md R124. -/
  | cbcDec
  /-- CTR_ENC, 42_ctr.md R133. -/
  | ctrEnc
  /-- CTR_DEC, 42_ctr.md R134. -/
  | ctrDec
  /-- CCM_ENC, 43_ccm.md R153. -/
  | ccmEnc
  /-- CCM_DEC, 43_ccm.md R154. -/
  | ccmDec
deriving DecidableEq, Repr

end Sys2Proof
end

