-- ==== Sys2Proof/Word.lean ====
section
/-! DEFINITION. The word types of CORE (00_scope.md R11: a byte is an unsigned 8-bit value, a bus word an unsigned
32-bit value; 20_memory.md R50: a window offset has 22 bits). -/

namespace Sys2Proof

/-- A byte of a store or of a byte sequence (R11). -/
abbrev Byte := BitVec 8

/-- A bus word: what one bus transaction moves, and the width of a register (R11, R23). -/
abbrev Word := BitVec 32

/-- An offset in CORE's 4 MiB window (R50). -/
abbrev Offset := BitVec 22

/-- A 16-byte block, byte 0 first (R4, R12). -/
abbrev Block16 := Vector Byte 16

/-- A 16-byte key, byte 0 first (R4). -/
abbrev Key16 := Vector Byte 16

end Sys2Proof
end

