-- ==== Sys2Proof/WellFormed.lean ====
section
/-! DEFINITION. What is well formed: every instruction (a command has no operand to be out of range, 30_encoding.md
R78, R82), and of the 32-bit words the legal command words of R76, R80. -/

namespace Sys2Proof

/-- R78, R82: no constructor has an operand, so each is well formed. -/
def Instr.wf : Instr → Bool
  | .pad => true
  | .unpad => true
  | .xor => true
  | .cbcEnc => true
  | .cbcDec => true
  | .ctrEnc => true
  | .ctrDec => true
  | .ccmEnc => true
  | .ccmDec => true

/-- R80, first check: the reserved field RES (bits 31:4) is 0. -/
def resClear (w : Word) : Bool := w.extractLsb' 4 28 == 0

/-- R80, second check: OP (bits 3:0) is neither 0x0 nor 0xA to 0xF. -/
def opAssigned (w : Word) : Bool :=
  1 ≤ (w.extractLsb' 0 4).toNat && (w.extractLsb' 0 4).toNat ≤ 9

/-- R76, R80: a legal command word. -/
def legalWord (w : Word) : Bool := resClear w && opAssigned w

end Sys2Proof
end

