-- ==== Sys2Proof/Decode.lean ====
section
/-! DEFINITION. The decoder of command words and the encoder (30_encoding.md R75, R76, R80; opcode_table.json). -/

namespace Sys2Proof

/-- R80, R175: the two ways a command word is illegal. -/
inductive Illegal where
  /-- Bits 31:4 are not all 0 (checked first). -/
  | resBits
  /-- RES is 0 and OP is 0x0 or 0xA to 0xF. -/
  | opReserved
deriving DecidableEq, Repr

/-- R75: the field RES of a command word. -/
def resField (w : Word) : BitVec 28 := w.extractLsb' 4 28

/-- R75: the field OP of a command word. -/
def opField (w : Word) : BitVec 4 := w.extractLsb' 0 4

/-- R76: what each OP value selects. -/
def decodeOp (op : Nat) : Except Illegal Instr :=
  match op with
  | 1 => .ok .pad
  | 2 => .ok .unpad
  | 3 => .ok .xor
  | 4 => .ok .cbcEnc
  | 5 => .ok .cbcDec
  | 6 => .ok .ctrEnc
  | 7 => .ok .ctrDec
  | 8 => .ok .ccmEnc
  | 9 => .ok .ccmDec
  | _ => .error .opReserved

/-- R80, R180: RES is checked first, then OP selects. Total on every 32-bit word. -/
def decode (w : Word) : Except Illegal Instr :=
  if resField w ≠ 0 then .error .resBits else decodeOp (opField w).toNat

/-- R76: the OP value of each command. -/
def opOf : Instr → BitVec 4
  | .pad => 1
  | .unpad => 2
  | .xor => 3
  | .cbcEnc => 4
  | .cbcDec => 5
  | .ctrEnc => 6
  | .ctrDec => 7
  | .ccmEnc => 8
  | .ccmDec => 9

/-- R75: the command word of an instruction, RES above OP. -/
def encode (i : Instr) : Word := (0 : BitVec 28) ++ opOf i

/-- The instruction the decoder reads from a row's bits: a command is one 32-bit word with no extension (R82), so
bits above the row's own are 0 and more than 32 bits are no command. -/
def decodeTableWord (nbits w : Nat) : Option Instr :=
  if 32 < nbits then none else
    match decode (BitVec.ofNat 32 (w % 2 ^ nbits)) with
    | .ok i => some i
    | .error _ => none

end Sys2Proof
end

