-- ==== Sys2Proof/Config.lean ====
section
/-! DEFINITION. What one machine fixes and the spec leaves open: the parameters of 00_scope.md R7 to R10 and the
free values of 93_implementation_defined.md U1 and U3. None of the `opaque` constants has a body, so every claim
holds for every legal value of them. -/

namespace Sys2Proof

/-- R2: the name a model gives this hardware. -/
def Config.modelName : String := "FK02_AESMODES_CORE"

/-- R9, U4: the block cipher under each key. A permutation of the blocks is exactly a pair (E, D) with the two
laws `D(k, E(k, b)) = b` and `E(k, D(k, b)) = b`, and nothing else is assumed (log 4). -/
opaque Config.cipher : Key16 → Equiv.Perm Block16

/-- R9: `E(k, b)`. -/
def Config.E (k : Key16) (b : Block16) : Block16 := Config.cipher k b

/-- R9: `D(k, b)`. -/
def Config.D (k : Key16) (b : Block16) : Block16 := (Config.cipher k).symm b

/-- R7, U5: IN_MAX is 16 times one more than this number, which covers every legal value: the multiples of 16 from
16 to 0x000F_FFF0 (log 5). -/
opaque Config.inUnits : Fin 65535

/-- R7: the capacity of IN in bytes. -/
def Config.inMax : Nat := 16 * (Config.inUnits.val + 1)

/-- R7: the capacity of OUT in bytes, `OUT_CAP = IN_MAX + 16`. -/
def Config.outCap : Nat := Config.inMax + 16

/-- R8, U5: AAD_MAX, any number from 0 to 65535 (log 5). -/
opaque Config.aadCap : Fin 65536

/-- R8: the capacity of AAD in bytes. -/
def Config.aadMax : Nat := Config.aadCap.val

/-- R10, U5: which 4 MiB slot of the platform's addresses CORE stands in (log 5). -/
opaque Config.baseSlot : Nat

/-- R10: BASE, aligned to 4 MiB. -/
def Config.base : Nat := 0x400000 * Config.baseSlot

/-- R41 to R43, U1, U2: the byte of IN, AAD or OUT at a window offset that stands there after a reset, drawn anew at
each reset (the first argument counts the reset pulses). A free value (log 1). -/
opaque Config.drawnByte : Nat → Nat → Byte

/-- R203, U3: how many host moves go before the completion step of the command with this number. A free value
(log 2). -/
opaque Config.lag : Nat → Nat

end Sys2Proof
end

