-- ==== Sys2Proof/Machine/State.lean ====
section
/-! DEFINITION. The state of CORE as plain data (10_state.md), the host's moves, and the machine right after reset
(70_reset_and_hazards.md R195). -/

namespace Sys2Proof.Machine

/-- Why the machine stops with a fault: never. 60_exceptions.md R180: the completion step "always ends, and never
hangs or faults"; 20_memory.md R53: "The host bus has no error response". An error completion is no fault: it is a
next state (R182). The type is empty, which is exact, so neither safe nor unsafe. -/
inductive Fault where
deriving DecidableEq, Repr

/-- Why the machine refuses an instruction. -/
inductive Refusal where
  /-- Raised by no arm of `exec`: every command has its meaning. Safe: a refusal stops the run. -/
  | notModelled (mnemonic : String)
deriving DecidableEq, Repr

/-- One byte store and its host window (20_memory.md R52). -/
inductive Store where
  /-- KEY, 16 bytes, write-only (10_state.md R39). -/
  | key
  /-- IV, 16 bytes, read and write (R40). -/
  | iv
  /-- IN, IN_MAX bytes, read and write (R41). -/
  | inp
  /-- AAD, AAD_MAX bytes, read and write (R42). -/
  | aad
  /-- OUT, OUT_CAP bytes, read-only to the host (R43). -/
  | out
deriving DecidableEq, Repr

/-- One move of the world outside the engine (60_exceptions.md R192; 70_reset_and_hazards.md R195). -/
inductive HostMove where
  /-- The transaction `BusRead(off)` (20_memory.md R53). -/
  | read (off : Offset)
  /-- The transaction `BusWrite(off, w)` (20_memory.md R54). -/
  | write (off : Offset) (w : Word)
  /-- One round of the loop `WAIT` (30_encoding.md R84): read STATUS, and go round again while BUSY is read as 1. -/
  | wait
  /-- A pulse of the reset input (70_reset_and_hazards.md R195, R197). -/
  | reset
deriving DecidableEq, Repr

/-- The bytes of IN, AAD and OUT written since reset, by window offset, strictly rising. -/
abbrev Memory := List Host.Cell

/-- What an offset not listed holds: no value of its own, because nothing has been written there since reset
(10_state.md R41 to R43; log 1). Its reading is then the byte drawn at reset (`State.ramByte`). -/
def Memory.unlisted : Option Byte := none

/-- The canonical form: offsets strictly rising. No entry equals what an unlisted offset holds, by type. -/
abbrev Memory.wf (m : Memory) : Prop := m.Pairwise fun c d => c.1 < d.1

/-- Everything the spec gives the machine, and five fields of the model's own at the end. -/
structure State where
  /-- LATCH, the accepted command word (10_state.md R44). -/
  latch : Word
  /-- STATUS.BUSY (R25). -/
  busy : Bool
  /-- STATUS.DONE (R26). -/
  done : Bool
  /-- STATUS.ERR (R27). -/
  err : Bool
  /-- STATUS.WOB (R28). -/
  wob : Bool
  /-- STATUS.ERRCODE (R29). -/
  errcode : BitVec 4
  /-- STATUS.ERRINFO (R30). -/
  errinfo : BitVec 4
  /-- KEY_LEN (R32). -/
  keyLen : BitVec 8
  /-- IV_LEN (R33). -/
  ivLen : BitVec 8
  /-- DATA_LEN (R34). -/
  dataLen : Word
  /-- AAD_LEN (R35). -/
  aadLen : BitVec 16
  /-- OUT_LEN (R36). -/
  outLen : Word
  /-- The store KEY (R39). -/
  key : Key16
  /-- The store IV (R40). -/
  iv : Block16
  /-- The stores IN, AAD and OUT (R41 to R43). -/
  mem : Memory
  /-- MODEL: the host's coming moves, the next one first (log 3). -/
  host : List HostMove
  /-- MODEL: the words that bus reads have answered, the newest first (log 3). -/
  replies : List Word
  /-- MODEL: how many host moves still go before the running command's completion step (log 2). -/
  lag : Nat
  /-- MODEL: how many commands have been accepted (log 2). -/
  accepted : Nat
  /-- MODEL: how many reset pulses there have been (log 1). -/
  epoch : Nat
deriving DecidableEq, Repr

/-- 70_reset_and_hazards.md R195, R196: the machine right after reset, IDLE with nothing latched. Memory lists
nothing: IN, AAD and OUT hold their drawn bytes. -/
def State.reset : State where
  latch := 0
  busy := false
  done := false
  err := false
  wob := false
  errcode := 0
  errinfo := 0
  keyLen := 0
  ivLen := 0
  dataLen := 0
  aadLen := 0
  outLen := 0
  key := Vector.replicate 16 0
  iv := Vector.replicate 16 0
  mem := []
  host := []
  replies := []
  lag := 0
  accepted := 0
  epoch := 0

end Sys2Proof.Machine
end

