-- ==== Sys2Proof/Machine/Flags.lean ====
section
/-! DEFINITION. The STATUS register and the error codes it carries (10_state.md R25 to R31; 60_exceptions.md R170 to
R175). -/

namespace Sys2Proof.Machine

/-- 60_exceptions.md R172: the causes of a LENGTH error. -/
inductive LengthCause where
  /-- IV_LEN is not 16 (CBC, CTR) or lies outside 7 to 13 (CCM). -/
  | ivLen
  /-- DATA_LEN is no multiple of 16 (CBC_DEC). -/
  | dataAlign
  /-- DATA_LEN is below 16 (CCM_DEC). -/
  | dataShort
  /-- DATA_LEN exceeds IN_MAX. -/
  | capIn
  /-- AAD_LEN (CCM) or DATA_LEN (XOR) exceeds AAD_MAX. -/
  | capAad
  /-- The payload length does not fit L bytes (CCM). -/
  | msgLen
deriving DecidableEq, Repr

/-- 60_exceptions.md R170: what an error completion reports. -/
inductive CmdError where
  /-- CIPHER_INIT (R171). -/
  | cipherInit
  /-- LENGTH with its cause (R172). -/
  | length (cause : LengthCause)
  /-- PADDING (R173). -/
  | padding
  /-- AUTH (R174). -/
  | auth
  /-- ILLEGAL_CMD with its cause (R175). -/
  | illegalCmd (why : Illegal)
deriving DecidableEq, Repr

/-- 00_scope.md R16: the two outcomes of `Run_OP`: `ok(y)` or `raise Err(CODE, INFO)`. -/
abbrev RunOutcome := Except CmdError (List Byte)

/-- R170: the number of each error code, as STATUS.ERRCODE holds it. -/
def CmdError.code : CmdError → BitVec 4
  | .cipherInit => 1
  | .length _ => 2
  | .padding => 3
  | .auth => 4
  | .illegalCmd _ => 5

/-- R172: the number of each LENGTH subcode. -/
def LengthCause.info : LengthCause → BitVec 4
  | .ivLen => 1
  | .dataAlign => 2
  | .dataShort => 3
  | .capIn => 4
  | .capAad => 5
  | .msgLen => 6

/-- R80, R175: the number of each ILLEGAL_CMD subcode. -/
def illegalInfo : Illegal → BitVec 4
  | .opReserved => 1
  | .resBits => 2

/-- R171 to R175: what STATUS.ERRINFO holds; 0 for CIPHER_INIT, PADDING and AUTH. -/
def CmdError.info : CmdError → BitVec 4
  | .cipherInit => 0
  | .length cause => cause.info
  | .padding => 0
  | .auth => 0
  | .illegalCmd why => illegalInfo why

/-- One bit of a register from a flag. -/
def flagBit (b : Bool) : BitVec 1 := BitVec.ofBool b

/-- 10_state.md R25 to R31: the word STATUS reads as: ERRINFO 11:8, ERRCODE 7:4, WOB 3, ERR 2, DONE 1, BUSY 0, and
bits 31:12 are 0. -/
def State.statusWord (s : State) : Word :=
  (0 : BitVec 20) ++ s.errinfo ++ s.errcode ++ flagBit s.wob ++ flagBit s.err ++ flagBit s.done ++ flagBit s.busy

/-- 20_memory.md R60, R62: what acceptance and an acknowledge clear together: DONE, ERR, ERRCODE and ERRINFO. -/
def State.clearResult (s : State) : State :=
  { s with done := false, err := false, errcode := 0, errinfo := 0 }

/-- 60_exceptions.md R181: the flags a success completion leaves. -/
def State.setSuccess (s : State) : State :=
  { s with err := false, errcode := 0, errinfo := 0, done := true, busy := false }

/-- 60_exceptions.md R182: the flags an error completion leaves. -/
def State.setError (s : State) (e : CmdError) : State :=
  { s with err := true, errcode := e.code, errinfo := e.info, done := true, busy := false }

end Sys2Proof.Machine
end

