-- ==== Sys2Proof/Machine/Ops.lean ====
section
/-! DEFINITION. The named operations over memory, stores and registers: the byte stores (20_memory.md R52, R64),
command acceptance (R60), the two commits of a completion step (60_exceptions.md R181, R182: taking an error is
`State.commitError`), the acknowledge (R183), and reset (70_reset_and_hazards.md R195, R197). -/

namespace Sys2Proof.Machine

/-! ### Memory: the written bytes of IN, AAD and OUT -/

/-- The byte listed at an offset; an offset not listed holds `Memory.unlisted`. -/
def Memory.get? : Memory → Nat → Option Byte
  | [], _ => Memory.unlisted
  | (a', b) :: m, a => if a = a' then some b else Memory.get? m a

/-- List a byte at an offset, in its place. -/
def Memory.set : Memory → Nat → Byte → Memory
  | [], a, b => [(a, b)]
  | (a', b') :: m, a, b =>
    if a < a' then (a, b) :: (a', b') :: m
    else if a = a' then (a, b) :: m
    else (a', b') :: Memory.set m a b

/-- List consecutive bytes from an offset on. -/
def Memory.setBytes : Memory → Nat → List Byte → Memory
  | m, _, [] => m
  | m, a, b :: bs => Memory.setBytes (Memory.set m a b) (a + 1) bs

/-- The byte of IN, AAD or OUT at a window offset: the one written last, or else the one drawn at reset
(10_state.md R41 to R43; U1; log 1). -/
def State.ramByte (s : State) (a : Nat) : Byte := (s.mem.get? a).getD (Config.drawnByte s.epoch a)

/-! ### Stores -/

/-- 20_memory.md R52: the window base of each store. -/
def Store.base : Store → Nat
  | .key => 0x40
  | .iv => 0x50
  | .inp => 0x100000
  | .aad => 0x200000
  | .out => 0x300000

/-- 20_memory.md R52: the mapped bytes of each store. -/
def Store.size : Store → Nat
  | .key => 16
  | .iv => 16
  | .inp => Config.inMax
  | .aad => Config.aadMax
  | .out => Config.outCap

/-- 20_memory.md R52: the stores the host may read; KEY is write-only. -/
def Store.hostReads : Store → Bool
  | .key => false
  | .iv => true
  | .inp => true
  | .aad => true
  | .out => true

/-- 20_memory.md R52: the stores the host may write; OUT is read-only. -/
def Store.hostWrites : Store → Bool
  | .key => true
  | .iv => true
  | .inp => true
  | .aad => true
  | .out => false

/-- `S[i]`: one byte of a store (00_scope.md R15). -/
def State.storeByte (s : State) (S : Store) (i : Nat) : Byte :=
  match S with
  | .key => (s.key[i]?).getD 0
  | .iv => (s.iv[i]?).getD 0
  | .inp => s.ramByte (Store.inp.base + i)
  | .aad => s.ramByte (Store.aad.base + i)
  | .out => s.ramByte (Store.out.base + i)

/-- 00_scope.md R15: `MemRead(S, off, n)`. -/
def State.memRead (s : State) (S : Store) (off n : Nat) : List Byte :=
  (List.range n).map fun i => s.storeByte S (off + i)

/-- Write one byte of a store. -/
def State.setStoreByte (s : State) (S : Store) (i : Nat) (b : Byte) : State :=
  match S with
  | .key => { s with key := s.key.setIfInBounds i b }
  | .iv => { s with iv := s.iv.setIfInBounds i b }
  | .inp => { s with mem := s.mem.set (Store.inp.base + i) b }
  | .aad => { s with mem := s.mem.set (Store.aad.base + i) b }
  | .out => { s with mem := s.mem.set (Store.out.base + i) b }

/-- `MemWrite(OUT, 0, y)` (00_scope.md R15; 20_memory.md R64): the engine's only store write. -/
def State.writeOut (s : State) (y : List Byte) : State :=
  { s with mem := s.mem.setBytes Store.out.base y }

/-! ### Command acceptance -/

/-- 20_memory.md R60: accept a command word. WOB stays; the word is not checked. The free `lag` of R203 is drawn here
(log 2). -/
def State.accept (s : State) (w : Word) : State :=
  { s.clearResult with
    latch := w, busy := true, outLen := 0, lag := Config.lag s.accepted, accepted := s.accepted + 1 }

/-- 20_memory.md R61: a write dropped while BUSY only sets WOB. -/
def State.dropWrite (s : State) : State := { s with wob := true }

/-! ### Completion: success, error, and the return from an error -/

/-- 60_exceptions.md R181: commit `ok(y)`. -/
def State.commitSuccess (s : State) (y : List Byte) : State :=
  { (s.writeOut y).setSuccess with outLen := BitVec.ofNat 32 y.length }

/-- 60_exceptions.md R182: commit `Err(code, info)`. This is how CORE takes an exception: STATUS saves what happened,
OUT is not written, OUT_LEN is 0. -/
def State.commitError (s : State) (e : CmdError) : State :=
  { s.setError e with outLen := 0 }

/-- 60_exceptions.md R180: commit an outcome. -/
def State.commit (s : State) : RunOutcome → State
  | .ok y => s.commitSuccess y
  | .error e => s.commitError e

/-- 60_exceptions.md R183, 20_memory.md R62: the acknowledge, the return from an error. -/
def State.acknowledge (s : State) : State := s.clearResult

/-! ### Reset -/

/-- 70_reset_and_hazards.md R195, R197: a pulse of the reset input, in either phase. Every register and store takes its
reset value, with the bytes of IN, AAD and OUT drawn anew (U1, U2). What belongs to the host goes on (log 7). -/
def State.resetPulse (s : State) : State :=
  { State.reset with host := s.host, replies := s.replies, accepted := s.accepted, epoch := s.epoch + 1 }

end Sys2Proof.Machine
end

