-- ==== Sys2Proof/Machine/Bus.lean ====
section
/-! DEFINITION. The host bus (20_memory.md R50 to R63): register offsets, store windows, byte lanes, reads, writes, and
one move of the host. -/

namespace Sys2Proof.Machine

/-- 20_memory.md R51: the registers the host sees. -/
inductive Reg where
  /-- CMD, 10_state.md R24. -/
  | cmd
  /-- STATUS, R25 to R31. -/
  | status
  /-- KEY_LEN, R32. -/
  | keyLen
  /-- IV_LEN, R33. -/
  | ivLen
  /-- DATA_LEN, R34. -/
  | dataLen
  /-- AAD_LEN, R35. -/
  | aadLen
  /-- OUT_LEN, R36. -/
  | outLen
  /-- IN_MAX_R, R37. -/
  | inMaxR
  /-- AAD_MAX_R, R38. -/
  | aadMaxR
deriving DecidableEq, Repr

/-- R51: the offset of each register. -/
def Reg.offset : Reg → Nat
  | .cmd => 0x000
  | .status => 0x004
  | .keyLen => 0x008
  | .ivLen => 0x00C
  | .dataLen => 0x010
  | .aadLen => 0x014
  | .outLen => 0x018
  | .inMaxR => 0x01C
  | .aadMaxR => 0x020

/-- R51: the registers, in the order of the table. -/
def Reg.all : List Reg := [.cmd, .status, .keyLen, .ivLen, .dataLen, .aadLen, .outLen, .inMaxR, .aadMaxR]

/-- R51: the register at an aligned offset: the one whose offset it is. -/
def regAt (o : Nat) : Option Reg := Reg.all.find? fun r => r.offset == o

/-- R50: the window offset of a platform address; an address outside the window does not reach CORE. -/
def windowOffset (addr : Nat) : Option Offset :=
  if Config.base ≤ addr ∧ addr - Config.base < 0x400000 then some (BitVec.ofNat 22 (addr - Config.base)) else none

/-- R55: the offset with bits [1:0] cleared. -/
def alignedOffset (off : Offset) : Nat := off.toNat - off.toNat % 4

/-- R52: whether a byte offset is a mapped byte of a store. -/
def Store.maps (S : Store) (o : Nat) : Bool := decide (S.base ≤ o) && decide (o - S.base < S.size)

/-- R52: the store and index of a mapped byte offset; `none` where it is unmapped (or a register's). -/
def locate (o : Nat) : Option (Store × Nat) :=
  if Store.key.maps o then some (.key, o - Store.key.base)
  else if Store.iv.maps o then some (.iv, o - Store.iv.base)
  else if Store.inp.maps o then some (.inp, o - Store.inp.base)
  else if Store.aad.maps o then some (.aad, o - Store.aad.base)
  else if Store.out.maps o then some (.out, o - Store.out.base)
  else none

/-- R56: lane i of a bus word. -/
def lane (w : Word) (i : Nat) : Byte := w.extractLsb' (8 * i) 8

/-- R56: the bus word of four lanes, lane 0 least significant. -/
def fromLanes (b0 b1 b2 b3 : Byte) : Word := b3 ++ b2 ++ b1 ++ b0

/-- R53: what a lane reads: a mapped byte of a store the host may read, else 0. -/
def State.laneRead (s : State) (o : Nat) : Byte :=
  match locate o with
  | some (S, i) => if S.hostReads then s.storeByte S i else 0
  | none => 0

/-- 10_state.md R24 to R38: the readable value of each register. -/
def State.readReg (s : State) : Reg → Word
  | .cmd => 0
  | .status => s.statusWord
  | .keyLen => s.keyLen.setWidth 32
  | .ivLen => s.ivLen.setWidth 32
  | .dataLen => s.dataLen
  | .aadLen => s.aadLen.setWidth 32
  | .outLen => s.outLen
  | .inMaxR => BitVec.ofNat 32 Config.inMax
  | .aadMaxR => BitVec.ofNat 32 Config.aadMax

/-- R53: `BusRead(off)`. It changes no state, so it is a function to a word. -/
def State.busRead (s : State) (off : Offset) : Word :=
  match regAt (alignedOffset off) with
  | some r => s.readReg r
  | none =>
    fromLanes (s.laneRead (alignedOffset off)) (s.laneRead (alignedOffset off + 1))
      (s.laneRead (alignedOffset off + 2)) (s.laneRead (alignedOffset off + 3))

/-- R62: a write to STATUS, in either phase: bit 1 acknowledges, bit 3 clears WOB, the other bits are ignored. -/
def State.statusWrite (s : State) (w : Word) : State :=
  let s1 := if w.getLsbD 1 then s.acknowledge else s
  if w.getLsbD 3 then { s1 with wob := false } else s1

/-- R52, R54 (d): whether a byte offset is a mapped byte of a store the host may write. -/
def laneWritable (o : Nat) : Bool :=
  match locate o with
  | some (S, _) => S.hostWrites
  | none => false

/-- R54 (d): write one lane; a lane that reaches no mapped writable byte is ignored. -/
def State.laneWrite (s : State) (o : Nat) (b : Byte) : State :=
  match locate o with
  | some (S, i) => if S.hostWrites then s.setStoreByte S i b else s
  | none => s

/-- R54 (d): write the four lanes of a word at an aligned offset. -/
def State.lanesWrite (s : State) (o : Nat) (w : Word) : State :=
  (((s.laneWrite o (lane w 0)).laneWrite (o + 1) (lane w 1)).laneWrite (o + 2) (lane w 2)).laneWrite (o + 3) (lane w 3)

/-- R61: a write to an input register or input store has its effect while IDLE and is dropped while BUSY. -/
def State.unlessBusy (s : State) (written : State) : State := if s.busy then s.dropWrite else written

/-- R54 (a) to (c), R60 to R63: a write to each register. -/
def State.writeReg (s : State) (r : Reg) (w : Word) : State :=
  match r with
  | .cmd => s.unlessBusy (s.accept w)
  | .status => s.statusWrite w
  | .keyLen => s.unlessBusy { s with keyLen := w.setWidth 8 }
  | .ivLen => s.unlessBusy { s with ivLen := w.setWidth 8 }
  | .dataLen => s.unlessBusy { s with dataLen := w }
  | .aadLen => s.unlessBusy { s with aadLen := w.setWidth 16 }
  | .outLen => s
  | .inMaxR => s
  | .aadMaxR => s

/-- R54 (d): whether a word reaches a mapped byte of KEY, IV, IN or AAD. -/
def anyLaneWritable (o : Nat) : Bool :=
  laneWritable o || laneWritable (o + 1) || laneWritable (o + 2) || laneWritable (o + 3)

/-- R54: `BusWrite(off, w)`. -/
def State.busWrite (s : State) (off : Offset) (w : Word) : State :=
  match regAt (alignedOffset off) with
  | some r => s.writeReg r w
  | none =>
    if anyLaneWritable (alignedOffset off) then s.unlessBusy (s.lanesWrite (alignedOffset off) w) else s

/-- One host move has gone: it leaves the list, and the running command's completion is one move nearer (log 2, 3). -/
def State.takeMove (s : State) (rest : List HostMove) : State := { s with host := rest, lag := s.lag - 1 }

/-- R58, R67: one host move. A read only adds its word to the replies; WAIT reads STATUS and stays while BUSY is read
as 1 (30_encoding.md R84). -/
def State.hostMove (s : State) (m : HostMove) (rest : List HostMove) : State :=
  match m with
  | .read off => { s.takeMove rest with replies := s.busRead off :: s.replies }
  | .write off w => (s.takeMove rest).busWrite off w
  | .wait => { s.takeMove (if s.busy then .wait :: rest else rest) with replies := s.statusWord :: s.replies }
  | .reset => (s.takeMove rest).resetPulse

end Sys2Proof.Machine
end

