-- ==== Sys2Proof/Machine/Datapath.lean ====
section
/-! DEFINITION. The datapath functions the commands share: byte XOR (40_padding_xor.md R100), PKCS#7 (R102, R103), zero
padding (R104), big-endian integers (00_scope.md R13), and byte sequences cut into 16-byte blocks (R12). -/

namespace Sys2Proof.Machine

/-- R12: `nblk(n)`, the 16-byte blocks that cover n bytes. -/
def nblk (n : Nat) : Nat := (n + 15) / 16

/-- R13: `be_L(v)`, L bytes, the most significant first. -/
def beBytes : Nat → Nat → List Byte
  | 0, _ => []
  | L + 1, v => BitVec.ofNat 8 (v / 256 ^ L) :: beBytes L v

/-- R13: `int_be(x)`. -/
def intBe (x : List Byte) : Nat := x.foldl (fun acc b => acc * 256 + b.toNat) 0

/-- R100: `xor_n(x, y)`, the bytewise XOR of the first n bytes. -/
def xorN (n : Nat) (x y : List Byte) : List Byte := List.zipWith (· ^^^ ·) (x.take n) (y.take n)

/-- R14: the XOR of two blocks, `xor_16`. -/
def blockXor (x y : Block16) : Block16 := Vector.ofFn fun i => x[i] ^^^ y[i]

/-- The block that starts a byte sequence; bytes past its end would be 0 (no caller has fewer than 16). -/
def blockOf (x : List Byte) : Block16 := Vector.ofFn fun i => x.getD i.val 0

/-- The first `m` blocks of a byte sequence. -/
def takeBlocks : Nat → List Byte → List Block16
  | 0, _ => []
  | m + 1, x => blockOf (x.take 16) :: takeBlocks m (x.drop 16)

/-- R12: `blk(x, 0), blk(x, 1), ...`: the whole blocks of a byte sequence. -/
def blocks (x : List Byte) : List Block16 := takeBlocks (x.length / 16) x

/-- R12: the byte sequence of some blocks, one after another. -/
def unblocks (bs : List Block16) : List Byte := bs.flatMap fun b => b.toList

/-- 30_encoding.md R85: the padding length for a message of n bytes. -/
def padLength (n : Nat) : Nat := 16 - n % 16

/-- R102: `pad16(x) = x ‖ p^p`. -/
def pad16 (x : List Byte) : List Byte :=
  x ++ List.replicate (padLength x.length) (BitVec.ofNat 8 (padLength x.length))

/-- R103: the last byte, read as the padding length (0 of an empty sequence, which is refused first). -/
def lastByte (x : List Byte) : Nat := (x.getD (x.length - 1) 0).toNat

/-- R103: `unpad16(x)`, its checks in order. -/
def unpad16 (x : List Byte) : RunOutcome :=
  if x.length = 0 then .error .padding
  else if lastByte x = 0 then .error .padding
  else if 16 < lastByte x then .error .padding
  else if x.length < lastByte x then .error .padding
  else if (x.drop (x.length - lastByte x)).any fun b => b.toNat != lastByte x then .error .padding
  else .ok (x.take (x.length - lastByte x))

/-- How many zero bytes take a length to the next multiple of 16 (R104, and z of 30_encoding.md R90). -/
def zpadLength (n : Nat) : Nat := (16 - n % 16) % 16

/-- R104: `zpad16(x) = x ‖ 00^z`. -/
def zpad16 (x : List Byte) : List Byte := x ++ List.replicate (zpadLength x.length) 0

/-- 42_ctr.md R132, 43_ccm.md R148: XOR a byte sequence with keystream blocks; the last slice may be shorter, and only
that many keystream bytes are used. -/
def streamXor : List Block16 → List Byte → List Byte
  | [], _ => []
  | ks :: rest, x => xorN (min 16 x.length) x ks.toList ++ streamXor rest (x.drop 16)

end Sys2Proof.Machine
end

