-- ==== Sys2Proof/Machine/Operands.lean ====
section
/-! DEFINITION. The operands of the commands (30_encoding.md R78, R79): the fixed registers and stores, each length an
unsigned number of its width. -/

namespace Sys2Proof.Machine

/-- `n = DATA_LEN` (00_scope.md R17). -/
def State.dataLength (s : State) : Nat := s.dataLen.toNat

/-- `a = AAD_LEN` (00_scope.md R17). -/
def State.aadLength (s : State) : Nat := s.aadLen.toNat

/-- `N = IV_LEN` (30_encoding.md R78). -/
def State.ivLength (s : State) : Nat := s.ivLen.toNat

/-- KEY_LEN as a number (30_encoding.md R79). -/
def State.keyLength (s : State) : Nat := s.keyLen.toNat

/-- `IN[0..n)`: the input message (10_state.md R41). -/
def State.message (s : State) : List Byte := s.memRead .inp 0 s.dataLength

/-- `AAD[0..a)`: the associated data (10_state.md R42). -/
def State.assocData (s : State) : List Byte := s.memRead .aad 0 s.aadLength

/-- `AAD[0..n)`: the second operand of XOR (40_padding_xor.md R107). -/
def State.xorOperand (s : State) : List Byte := s.memRead .aad 0 s.dataLength

/-- `IV[0..N)`: the CCM nonce (10_state.md R40). -/
def State.nonce (s : State) : List Byte := s.memRead .iv 0 s.ivLength

end Sys2Proof.Machine
end

