-- ==== Sys2Proof/Machine/Cbc.lean ====
section
/-! DEFINITION. The CBC chaining engine and its commands (41_cbc.md R120 to R124). -/

namespace Sys2Proof.Machine

/-- R121: `cbc_enc_blocks` on blocks; `chain` is CHAIN of R120. -/
def cbcEncBlocks (k : Key16) (chain : Block16) : List Block16 → List Block16
  | [] => []
  | p :: ps => Config.E k (blockXor p chain) :: cbcEncBlocks k (Config.E k (blockXor p chain)) ps

/-- R122: `cbc_dec_blocks` on blocks; `chain` is CHAIN of R120. -/
def cbcDecBlocks (k : Key16) (chain : Block16) : List Block16 → List Block16
  | [] => []
  | c :: cs => blockXor (Config.D k c) chain :: cbcDecBlocks k c cs

/-- R121: `cbc_enc_blocks(k, iv, P)`, P a multiple of 16 bytes long. -/
def cbcEncrypt (k : Key16) (iv : Block16) (P : List Byte) : List Byte := unblocks (cbcEncBlocks k iv (blocks P))

/-- R122: `cbc_dec_blocks(k, iv, C)`, C a multiple of 16 bytes long. -/
def cbcDecrypt (k : Key16) (iv : Block16) (C : List Byte) : List Byte := unblocks (cbcDecBlocks k iv (blocks C))

/-- R123: `Run_CBC_ENC(σ)`. -/
def runCbcEnc (s : State) : RunOutcome :=
  if Config.inMax < s.dataLength then .error (.length .capIn)
  else if s.keyLength ≠ 16 then .error .cipherInit
  else if s.ivLength ≠ 16 then .error (.length .ivLen)
  else .ok (cbcEncrypt s.key s.iv (pad16 s.message))

/-- R124: `Run_CBC_DEC(σ)`. -/
def runCbcDec (s : State) : RunOutcome :=
  if Config.inMax < s.dataLength then .error (.length .capIn)
  else if s.keyLength ≠ 16 then .error .cipherInit
  else if s.ivLength ≠ 16 then .error (.length .ivLen)
  else if s.dataLength % 16 ≠ 0 then .error (.length .dataAlign)
  else unpad16 (cbcDecrypt s.key s.iv s.message)

/-- CBC_ENC's completion (R123; 60_exceptions.md R180). -/
def execCbcEnc (s : State) : Host.Outcome State Fault Refusal := .next (s.commit (runCbcEnc s))

/-- CBC_DEC's completion (R124; 60_exceptions.md R180). -/
def execCbcDec (s : State) : Host.Outcome State Fault Refusal := .next (s.commit (runCbcDec s))

end Sys2Proof.Machine
end

