-- ==== Sys2Proof/Machine/Ccm.lean ====
section
/-! DEFINITION. The CCM AEAD construction and its commands (30_encoding.md R87 to R93; 43_ccm.md R140 to R154). -/

namespace Sys2Proof.Machine

/-- 30_encoding.md R87: `M`, the tag length. -/
def ccmTagLength : Nat := 16

/-- 30_encoding.md R87: `L = 15 − N`, the size of the length and counter fields. -/
def ccmL (N : Nat) : Nat := 15 - N

/-- 30_encoding.md R88: the flags byte of B0. -/
def ccmFlags (hasAAD : Bool) (L : Nat) : Byte :=
  (if hasAAD then 0x40 else 0) ||| (BitVec.ofNat 8 ((ccmTagLength - 2) / 2) <<< 3) ||| BitVec.ofNat 8 (L - 1)

/-- 30_encoding.md R89: B0 for a payload of `plen` bytes. -/
def ccmB0 (nonce : List Byte) (plen : Nat) (hasAAD : Bool) : Block16 :=
  blockOf (ccmFlags hasAAD (ccmL nonce.length) :: nonce ++ beBytes (ccmL nonce.length) plen)

/-- 30_encoding.md R90: the associated-data string AADS; empty when there is none. -/
def ccmAads (A : List Byte) : List Byte :=
  if A.length = 0 then []
  else beBytes 2 A.length ++ A ++ List.replicate (zpadLength (A.length + 2)) 0

/-- 30_encoding.md R91: the counter block A_i. -/
def ccmCounterBlock (nonce : List Byte) (i : Nat) : Block16 :=
  blockOf (BitVec.ofNat 8 (ccmL nonce.length - 1) :: nonce ++ beBytes (ccmL nonce.length) i)

/-- 43_ccm.md R144, R145: the CBC-MAC steps over some chunks. -/
def macChunks (k : Key16) (mac : Block16) (chunks : List Block16) : Block16 :=
  chunks.foldl (fun mac c => Config.E k (blockXor mac c)) mac

/-- 43_ccm.md R141: `hasAAD = (a > 0)`. -/
def hasAAD (A : List Byte) : Bool := decide (0 < A.length)

/-- 43_ccm.md R146: `ccm_mac(k, nonce, P, A)`: seed, associated data, payload. -/
def ccmMac (k : Key16) (nonce P A : List Byte) : Block16 :=
  macChunks k (macChunks k (Config.E k (ccmB0 nonce P.length (hasAAD A))) (blocks (ccmAads A))) (blocks (zpad16 P))

/-- 43_ccm.md R147: the keystream block S_i. -/
def ccmS (k : Key16) (nonce : List Byte) (i : Nat) : Block16 := Config.E k (ccmCounterBlock nonce i)

/-- 43_ccm.md R148: the payload keystream; the counter starts at 1. -/
def ccmKeystream (k : Key16) (nonce : List Byte) (m : Nat) : List Block16 :=
  (List.range m).map fun j => ccmS k nonce (j + 1)

/-- 43_ccm.md R148: `ccm_ctr(k, nonce, X)`. -/
def ccmCtr (k : Key16) (nonce X : List Byte) : List Byte := streamXor (ccmKeystream k nonce (nblk X.length)) X

/-- 43_ccm.md R150: `tag_eq(T, T')`, the OR of all sixteen byte differences tested once. -/
def tagEq (T T' : Block16) : Bool := (blockXor T T').toList.foldl (· ||| ·) 0 == 0

/-- 43_ccm.md R153: the output `C ‖ U` of authenticated encryption. -/
def ccmSeal (k : Key16) (nonce P A : List Byte) : List Byte :=
  ccmCtr k nonce P ++ (blockXor (ccmMac k nonce P A) (ccmS k nonce 0)).toList

/-- 43_ccm.md R154: decrypt `C ‖ U`, recompute the tag and compare it. -/
def ccmOpen (k : Key16) (nonce X A : List Byte) : RunOutcome :=
  let C := X.take (X.length - 16)
  let U := blockOf (X.drop (X.length - 16))
  let T' := blockXor U (ccmS k nonce 0)
  let P := ccmCtr k nonce C
  if tagEq (ccmMac k nonce P A) T' then .ok P else .error .auth

/-- 43_ccm.md R153: `Run_CCM_ENC(σ)`. -/
def runCcmEnc (s : State) : RunOutcome :=
  if Config.inMax < s.dataLength then .error (.length .capIn)
  else if Config.aadMax < s.aadLength then .error (.length .capAad)
  else if s.keyLength ≠ 16 then .error .cipherInit
  else if s.ivLength < 7 ∨ 13 < s.ivLength then .error (.length .ivLen)
  else if 2 ^ (8 * ccmL s.ivLength) ≤ s.dataLength then .error (.length .msgLen)
  else .ok (ccmSeal s.key s.nonce s.message s.assocData)

/-- 43_ccm.md R154: `Run_CCM_DEC(σ)`. -/
def runCcmDec (s : State) : RunOutcome :=
  if Config.inMax < s.dataLength then .error (.length .capIn)
  else if Config.aadMax < s.aadLength then .error (.length .capAad)
  else if s.keyLength ≠ 16 then .error .cipherInit
  else if s.ivLength < 7 ∨ 13 < s.ivLength then .error (.length .ivLen)
  else if s.dataLength < 16 then .error (.length .dataShort)
  else if 2 ^ (8 * ccmL s.ivLength) ≤ s.dataLength - 16 then .error (.length .msgLen)
  else ccmOpen s.key s.nonce s.message s.assocData

/-- CCM_ENC's completion (R153; 60_exceptions.md R180). -/
def execCcmEnc (s : State) : Host.Outcome State Fault Refusal := .next (s.commit (runCcmEnc s))

/-- CCM_DEC's completion (R154; 60_exceptions.md R180). -/
def execCcmDec (s : State) : Host.Outcome State Fault Refusal := .next (s.commit (runCcmDec s))

end Sys2Proof.Machine
end

