-- ==== Sys2Proof/Machine/Ctr.lean ====
section
/-! DEFINITION. The CTR counter, its keystream and its commands (42_ctr.md R130 to R134). -/

namespace Sys2Proof.Machine

/-- R130: the increment loop, from the last byte back; answers the carry out and the bytes. The carry in is 1. -/
def ctrIncLoop : List Byte → Nat × List Byte
  | [] => (1, [])
  | b :: bs =>
    let (carry, rest) := ctrIncLoop bs
    ((b.toNat + carry) / 256, BitVec.ofNat 8 ((b.toNat + carry) % 256) :: rest)

/-- R130: `ctr_inc(CTRB)`; the carry out of byte 0 is discarded. -/
def ctrInc (ctrb : Block16) : Block16 := blockOf (ctrIncLoop ctrb.toList).2

/-- R132: the first `m` keystream blocks from the counter block `ctrb`, which is incremented after each. -/
def ctrKeystream (k : Key16) : Nat → Block16 → List Block16
  | 0, _ => []
  | m + 1, ctrb => Config.E k ctrb :: ctrKeystream k m (ctrInc ctrb)

/-- R132: `ctr_xcrypt(k, iv, X)`. -/
def ctrXcrypt (k : Key16) (iv : Block16) (X : List Byte) : List Byte :=
  streamXor (ctrKeystream k (nblk X.length) iv) X

/-- R133: the checks and the computation that CTR_ENC and CTR_DEC share. -/
def ctrCommand (s : State) : RunOutcome :=
  if Config.inMax < s.dataLength then .error (.length .capIn)
  else if s.keyLength ≠ 16 then .error .cipherInit
  else if s.ivLength ≠ 16 then .error (.length .ivLen)
  else .ok (ctrXcrypt s.key s.iv s.message)

/-- R133: `Run_CTR_ENC(σ)`. -/
def runCtrEnc (s : State) : RunOutcome := ctrCommand s

/-- R134: `Run_CTR_DEC(σ)`. -/
def runCtrDec (s : State) : RunOutcome := ctrCommand s

/-- CTR_ENC's completion (R133; 60_exceptions.md R180). -/
def execCtrEnc (s : State) : Host.Outcome State Fault Refusal := .next (s.commit (runCtrEnc s))

/-- CTR_DEC's completion (R134; 60_exceptions.md R180). -/
def execCtrDec (s : State) : Host.Outcome State Fault Refusal := .next (s.commit (runCtrDec s))

end Sys2Proof.Machine
end

