-- ==== Sys2Proof/Machine/Padding.lean ====
section
/-! DEFINITION. The commands PAD, UNPAD and XOR (40_padding_xor.md R105 to R107). -/

namespace Sys2Proof.Machine

/-- R105: `Run_PAD(σ)`. -/
def runPad (s : State) : RunOutcome :=
  if Config.inMax < s.dataLength then .error (.length .capIn)
  else .ok (pad16 s.message)

/-- R106: `Run_UNPAD(σ)`. -/
def runUnpad (s : State) : RunOutcome :=
  if Config.inMax < s.dataLength then .error (.length .capIn)
  else unpad16 s.message

/-- R107: `Run_XOR(σ)`. AAD_LEN is not read. -/
def runXor (s : State) : RunOutcome :=
  if Config.inMax < s.dataLength then .error (.length .capIn)
  else if Config.aadMax < s.dataLength then .error (.length .capAad)
  else .ok (xorN s.dataLength s.message s.xorOperand)

/-- PAD's completion (R105; 60_exceptions.md R180). -/
def execPad (s : State) : Host.Outcome State Fault Refusal := .next (s.commit (runPad s))

/-- UNPAD's completion (R106; 60_exceptions.md R180). -/
def execUnpad (s : State) : Host.Outcome State Fault Refusal := .next (s.commit (runUnpad s))

/-- XOR's completion (R107; 60_exceptions.md R180). -/
def execXor (s : State) : Host.Outcome State Fault Refusal := .next (s.commit (runXor s))

end Sys2Proof.Machine
end

