-- ==== Sys2Proof/Machine/Dispatch.lean ====
section
/-! DEFINITION. One arm per command (60_exceptions.md R180). -/

namespace Sys2Proof.Machine

def exec (i : Instr) (s : State) : Host.Outcome State Fault Refusal :=
  match i with
  | .pad => Sys2Proof.Machine.execPad s
  | .unpad => Sys2Proof.Machine.execUnpad s
  | .xor => Sys2Proof.Machine.execXor s
  | .cbcEnc => Sys2Proof.Machine.execCbcEnc s
  | .cbcDec => Sys2Proof.Machine.execCbcDec s
  | .ctrEnc => Sys2Proof.Machine.execCtrEnc s
  | .ctrDec => Sys2Proof.Machine.execCtrDec s
  | .ccmEnc => Sys2Proof.Machine.execCcmEnc s
  | .ccmDec => Sys2Proof.Machine.execCcmDec s

end Sys2Proof.Machine
end

