-- ==== Sys2Proof/Machine/Step.lean ====
section
/-! DEFINITION. One step of CORE: the engine's completion step (60_exceptions.md R180) or one host move (20_memory.md
R58, R67). -/

namespace Sys2Proof.Machine

/-- R180, R203: the engine moves when it is BUSY and either no host move goes first or the host has none (log 2). -/
def State.engineTurn (s : State) : Bool := s.busy && (s.lag == 0 || s.host.isEmpty)

/-- R180: the completion step: decode LATCH, run the command, commit. -/
def complete (s : State) : Host.Outcome State Fault Refusal :=
  match decode s.latch with
  | .ok i => exec i s
  | .error why => .next (s.commitError (.illegalCmd why))

/-- One step. With nothing to do (IDLE and no host move) the machine stays as it is (60_exceptions.md R191; log 3). -/
def step (s : State) : Host.Outcome State Fault Refusal :=
  if s.engineTurn then complete s
  else match s.host with
    | [] => .next s
    | m :: rest => .next (s.hostMove m rest)

/-- The machine with a command word accepted and its completion step next (20_memory.md R60): the place `step` takes
its next instruction from is LATCH (R71). -/
def State.withFetchWord (s : State) (nbits w : Nat) : State :=
  { s.accept (BitVec.ofNat 32 (w % 2 ^ nbits)) with lag := 0 }

end Sys2Proof.Machine
end

