-- ==== Sys2Proof/Machine/HostProgram.lean ====
section
/-! DEFINITION. Host programs: their lines and the bus transactions they stand for (30_encoding.md R83, R84). -/

namespace Sys2Proof.Machine

/-- R83: a target is a register name or an offset. -/
inductive Target where
  /-- A register of 20_memory.md R51, by name. -/
  | reg (r : Reg)
  /-- An offset of the window. -/
  | offset (o : Offset)
deriving DecidableEq, Repr

/-- R83: one line of a host program. -/
inductive HostLine where
  /-- `WR <target>, <word>`. -/
  | wr (t : Target) (w : Word)
  /-- `RD <target>`. -/
  | rd (t : Target)
  /-- `CMD <mnemonic>`. -/
  | cmd (i : Instr)
  /-- `WRB <store>, <byteoff>, <hex bytes>`. -/
  | wrb (S : Store) (o : Nat) (bytes : List Byte)
  /-- `RDB <store>, <byteoff>, <count>`. -/
  | rdb (S : Store) (o k : Nat)
  /-- `WAIT`. -/
  | wait
  /-- `ACK`. -/
  | ack
deriving DecidableEq, Repr

/-- The offset a target names. -/
def Target.toOffset : Target → Offset
  | .reg r => BitVec.ofNat 22 r.offset
  | .offset o => o

/-- R84: `ceil(k/4)`, the words that cover k bytes. -/
def wordsFor (k : Nat) : Nat := (k + 3) / 4

/-- R84: "`o` must be a multiple of 4"; and every word the line reaches lies in the window (log 10). -/
def HostLine.wf : HostLine → Bool
  | .wr _ _ => true
  | .rd _ => true
  | .cmd _ => true
  | .wrb S o bytes => o % 4 == 0 && decide (S.base + o + 4 * wordsFor bytes.length ≤ 0x400000)
  | .rdb S o k => o % 4 == 0 && decide (S.base + o + 4 * wordsFor k ≤ 0x400000)
  | .wait => true
  | .ack => true

/-- R84: `w_q`, with 0x00 for the bytes past the last given one. -/
def wrbWord (bytes : List Byte) (q : Nat) : Word :=
  fromLanes (bytes.getD (4 * q) 0) (bytes.getD (4 * q + 1) 0) (bytes.getD (4 * q + 2) 0) (bytes.getD (4 * q + 3) 0)

/-- R84: the offset of word q of a line over a store. -/
def wordOffset (S : Store) (o q : Nat) : Offset := BitVec.ofNat 22 (S.base + o + 4 * q)

/-- R83, R84: the moves a line stands for. -/
def HostLine.expand : HostLine → List HostMove
  | .wr t w => [.write t.toOffset w]
  | .rd t => [.read t.toOffset]
  | .cmd i => [.write (BitVec.ofNat 22 Reg.cmd.offset) (encode i)]
  | .wrb S o bytes => (List.range (wordsFor bytes.length)).map fun q => .write (wordOffset S o q) (wrbWord bytes q)
  | .rdb S o k => (List.range (wordsFor k)).map fun q => .read (wordOffset S o q)
  | .wait => [.wait]
  | .ack => [.write (BitVec.ofNat 22 Reg.status.offset) 2]

/-- R83: the encoding of a host program; none where a line is ill formed. -/
def encodeProgram (p : List HostLine) : Option (List HostMove) :=
  if p.all HostLine.wf then some (p.flatMap HostLine.expand) else none

/-- R56: the four bytes of a bus word, lane 0 first. -/
def wordLanes (w : Word) : List Byte := [lane w 0, lane w 1, lane w 2, lane w 3]

/-- R84: what `RDB` yields from the words its reads answered, in the order of the reads: the first k bytes. -/
def rdbYield (k : Nat) (words : List Word) : List Byte := (words.flatMap wordLanes).take k

/-- The machine with a host program's moves appended to what the host will do (log 3). -/
def State.withProgram (s : State) (p : List HostLine) : Option State :=
  (encodeProgram p).map fun moves => { s with host := s.host ++ moves }

end Sys2Proof.Machine
end

