-- ==== Sys2Proof/Safety.lean ====
section
/-! DEFINITION. What the claims speak of: what a completion leaves, the invariant of every reachable state, when a
command's checks pass, and the bytes the rules of the modes name, each written from the rule itself and not from the
function that the machine runs. -/

namespace Sys2Proof.Machine

/-! ### What a completion leaves -/

/-- What every completion leaves as it was: all but the result fields of STATUS, BUSY, OUT_LEN and OUT
(60_exceptions.md R179, R181, R182), the model's own fields included. -/
structure Frame (s t : State) : Prop where
  latch : t.latch = s.latch
  wob : t.wob = s.wob
  keyLen : t.keyLen = s.keyLen
  ivLen : t.ivLen = s.ivLen
  dataLen : t.dataLen = s.dataLen
  aadLen : t.aadLen = s.aadLen
  key : t.key = s.key
  iv : t.iv = s.iv
  host : t.host = s.host
  replies : t.replies = s.replies
  lag : t.lag = s.lag
  accepted : t.accepted = s.accepted
  epoch : t.epoch = s.epoch

/-- R181: a success completion with output y: OUT[0..len(y)) is y, every other byte of IN, AAD and OUT is as it was. -/
structure Succeeded (s t : State) (y : List Byte) : Prop where
  frame : Frame s t
  busy : t.busy = false
  done : t.done = true
  err : t.err = false
  errcode : t.errcode = 0
  errinfo : t.errinfo = 0
  outLen : t.outLen.toNat = y.length
  out : ∀ i, i < y.length → t.storeByte .out i = y.getD i 0
  rest : ∀ a, ¬ (Store.out.base ≤ a ∧ a < Store.out.base + y.length) → t.ramByte a = s.ramByte a

/-- R182: an error completion with the given code and subcode: no byte of IN, AAD or OUT changes. -/
structure Failed (s t : State) (code info : BitVec 4) : Prop where
  frame : Frame s t
  busy : t.busy = false
  done : t.done = true
  err : t.err = true
  errcode : t.errcode = code
  errinfo : t.errinfo = info
  outLen : t.outLen = 0
  mem : ∀ a, t.ramByte a = s.ramByte a

/-- 10_state.md R45: two states with the same snapshot σ (LATCH, which selects the command, apart). -/
structure SameSnapshot (s t : State) : Prop where
  keyLen : t.keyLen = s.keyLen
  ivLen : t.ivLen = s.ivLen
  dataLen : t.dataLen = s.dataLen
  aadLen : t.aadLen = s.aadLen
  key : t.key = s.key
  iv : t.iv = s.iv
  inp : ∀ i, i < Config.inMax → t.storeByte .inp i = s.storeByte .inp i
  aad : ∀ i, i < Config.aadMax → t.storeByte .aad i = s.storeByte .aad i

/-! ### The invariant -/

/-- 20_memory.md R52: an offset of a mapped byte of IN, AAD or OUT. -/
def ramMapped (a : Nat) : Prop :=
  (Store.inp.base ≤ a ∧ a < Store.inp.base + Config.inMax) ∨
  (Store.aad.base ≤ a ∧ a < Store.aad.base + Config.aadMax) ∨
  (Store.out.base ≤ a ∧ a < Store.out.base + Config.outCap)

/-- 60_exceptions.md R170, R172, R175: the pairs of code and subcode that an error can report. -/
abbrev legalError (code info : BitVec 4) : Prop :=
  (code = 1 ∧ info = 0) ∨ (code = 2 ∧ 1 ≤ info.toNat ∧ info.toNat ≤ 6) ∨ (code = 3 ∧ info = 0) ∨
  (code = 4 ∧ info = 0) ∨ (code = 5 ∧ 1 ≤ info.toNat ∧ info.toNat ≤ 2)

/-- What every reachable state satisfies: 10_state.md R49 (a) to (c), the legal error codes, OUT_LEN within OUT, and
the canonical form of memory, which lists mapped bytes only. -/
structure Inv (s : State) : Prop where
  /-- R49 (a). -/
  busy : s.busy = true → s.done = false ∧ s.err = false ∧ s.errcode = 0 ∧ s.errinfo = 0 ∧ s.outLen = 0
  /-- R49 (b), with R170 to R175 and R182. -/
  err : s.err = true → s.done = true ∧ legalError s.errcode s.errinfo ∧ s.outLen = 0
  /-- R49 (c). -/
  noErr : s.err = false → s.errcode = 0 ∧ s.errinfo = 0
  /-- R43: OUT_LEN counts bytes of OUT. -/
  outLen : s.outLen.toNat ≤ Config.outCap
  /-- The canonical form. -/
  memWf : s.mem.wf
  /-- R52: only mapped bytes are ever written. -/
  memMapped : ∀ c ∈ s.mem, ramMapped c.1

/-! ### When a command's checks pass (60_exceptions.md R177, items 2 to 7) -/

/-- R176: DATA_LEN is within IN. -/
abbrev CapIn (s : State) : Prop := s.dataLen.toNat ≤ Config.inMax

/-- R140, R142: the CCM nonce length, and a payload length that fits L bytes. -/
abbrev CcmSizes (s : State) (plen : Nat) : Prop :=
  7 ≤ s.ivLen.toNat ∧ s.ivLen.toNat ≤ 13 ∧ plen < 2 ^ (8 * (15 - s.ivLen.toNat))

/-- The checks of R177, items 2 to 7, for each command. -/
def Ready : Instr → State → Prop
  | .pad, s => CapIn s
  | .unpad, s => CapIn s
  | .xor, s => CapIn s ∧ s.dataLen.toNat ≤ Config.aadMax
  | .cbcEnc, s => CapIn s ∧ s.keyLen = 16 ∧ s.ivLen = 16
  | .cbcDec, s => CapIn s ∧ s.keyLen = 16 ∧ s.ivLen = 16 ∧ s.dataLen.toNat % 16 = 0
  | .ctrEnc, s => CapIn s ∧ s.keyLen = 16 ∧ s.ivLen = 16
  | .ctrDec, s => CapIn s ∧ s.keyLen = 16 ∧ s.ivLen = 16
  | .ccmEnc, s => CapIn s ∧ s.aadLen.toNat ≤ Config.aadMax ∧ s.keyLen = 16 ∧ CcmSizes s s.dataLen.toNat
  | .ccmDec, s =>
    CapIn s ∧ s.aadLen.toNat ≤ Config.aadMax ∧ s.keyLen = 16 ∧ 16 ≤ s.dataLen.toNat ∧ CcmSizes s (s.dataLen.toNat - 16)

/-! ### The bytes the rules name -/

/-- 00_scope.md R13: byte j of `be_L(v)`. -/
def beByte (L v j : Nat) : Byte := BitVec.ofNat 8 (v / 256 ^ (L - 1 - j))

/-- R12: block j of a byte sequence given by its bytes. -/
def blockAt (x : Nat → Byte) (j : Nat) : Block16 := Vector.ofFn fun i => x (16 * j + i.val)

/-- 30_encoding.md R85: byte i of the padded message, `p^p` after the n bytes of IN. -/
def paddedByte (s : State) (i : Nat) : Byte :=
  if i < s.dataLen.toNat then s.storeByte .inp i else BitVec.ofNat 8 (16 - s.dataLen.toNat % 16)

/-- 40_padding_xor.md R103: n bytes end in a well-formed padding of p bytes. -/
def ValidPadding (x : Nat → Byte) (n p : Nat) : Prop :=
  1 ≤ p ∧ p ≤ 16 ∧ p ≤ n ∧ ∀ i, n - p ≤ i → i < n → (x i).toNat = p

/-- 41_cbc.md R122: byte i of the CBC plaintext of IN: `D(k, C_j)` XOR the block before (the IV for block 0). -/
def cbcPlainByte (s : State) (i : Nat) : Byte :=
  (blockXor (Config.D s.key (blockAt (s.storeByte .inp) (i / 16)))
    (if i / 16 = 0 then s.iv else blockAt (s.storeByte .inp) (i / 16 - 1))).toList.getD (i % 16) 0

/-- 42_ctr.md R131: `CTRB_j = be_16((int_be(iv) + j) mod 2^128)`. -/
def counterAt (iv : Block16) (j : Nat) : Block16 :=
  Vector.ofFn fun i => beByte 16 ((intBe iv.toList + j) % 2 ^ 128) i.val

/-- 42_ctr.md R131, R132: keystream byte i of CTR, byte `i mod 16` of `E(k, CTRB_(i div 16))`. -/
def ctrKeyByte (s : State) (i : Nat) : Byte :=
  (Config.E s.key (counterAt s.iv (i / 16))).toList.getD (i % 16) 0

/-- 30_encoding.md R88, R89: byte j of B0; `N = IV_LEN`, `a = AAD_LEN`. -/
def b0Byte (s : State) (plen j : Nat) : Byte :=
  if j = 0 then BitVec.ofNat 8 ((if 0 < s.aadLen.toNat then 0x40 else 0) + 0x38 + (15 - s.ivLen.toNat - 1))
  else if j ≤ s.ivLen.toNat then s.storeByte .iv (j - 1)
  else beByte (15 - s.ivLen.toNat) plen (j - s.ivLen.toNat - 1)

/-- 30_encoding.md R91: byte j of A_i. -/
def aByte (s : State) (i j : Nat) : Byte :=
  if j = 0 then BitVec.ofNat 8 (15 - s.ivLen.toNat - 1)
  else if j ≤ s.ivLen.toNat then s.storeByte .iv (j - 1)
  else beByte (15 - s.ivLen.toNat) i (j - s.ivLen.toNat - 1)

/-- 43_ccm.md R147: `S_i = E(k, A_i)`. -/
def streamBlock (s : State) (i : Nat) : Block16 := Config.E s.key (blockAt (aByte s i) 0)

/-- 43_ccm.md R148: keystream byte i of the payload; the counter starts at 1. -/
def ccmKeyByte (s : State) (i : Nat) : Byte := (streamBlock s (i / 16 + 1)).toList.getD (i % 16) 0

/-- 30_encoding.md R90: byte i of AADS. -/
def aadsByte (s : State) (i : Nat) : Byte :=
  if i < 2 then beByte 2 s.aadLen.toNat i
  else if i < s.aadLen.toNat + 2 then s.storeByte .aad (i - 2)
  else 0

/-- 30_encoding.md R90: `len(AADS)/16`, 0 when there is no associated data. -/
def aadChunks (s : State) : Nat := if s.aadLen.toNat = 0 then 0 else (s.aadLen.toNat + 2 + 15) / 16

/-- 43_ccm.md R144, R145: the MAC accumulator after q chunks: first those of AADS, then those of the payload (given by
its bytes, zero past `plen`). -/
def macAfter (s : State) (plen : Nat) (payload : Nat → Byte) : Nat → Block16
  | 0 => Config.E s.key (blockAt (b0Byte s plen) 0)
  | q + 1 =>
    Config.E s.key (blockXor (macAfter s plen payload q)
      (if q < aadChunks s then blockAt (aadsByte s) q
       else blockAt (fun i => if i < plen then payload i else 0) (q - aadChunks s)))

/-- 43_ccm.md R146: the tag T. -/
def ccmTag (s : State) (plen : Nat) (payload : Nat → Byte) : Block16 :=
  macAfter s plen payload (aadChunks s + (plen + 15) / 16)

end Sys2Proof.Machine
end

