-- ==== Sys2Proof/Certificates/Slice0/Obligations.lean ====
section
/-! DEFINITION. The statements for the provers. Each docstring names the rule of spec/ that the statement formalises. -/

open Sys2Proof Sys2Proof.Machine

/-! ### Command words (30_encoding.md) -/

/-- R76: each of the nine words decodes to its command. -/
def Obligations.NineWordsDecode : Prop :=
  decode 0x00000001 = .ok .pad ∧ decode 0x00000002 = .ok .unpad ∧ decode 0x00000003 = .ok .xor ∧
  decode 0x00000004 = .ok .cbcEnc ∧ decode 0x00000005 = .ok .cbcDec ∧ decode 0x00000006 = .ok .ctrEnc ∧
  decode 0x00000007 = .ok .ctrDec ∧ decode 0x00000008 = .ok .ccmEnc ∧ decode 0x00000009 = .ok .ccmDec

/-- R75 to R77: a word that decodes to a command is that command's encoding: no bit of a word is dropped. -/
def Obligations.DecodedWordIsTheEncoding : Prop :=
  ∀ (w : Word) (i : Instr), decode w = .ok i ↔ w = encode i

/-- R80, R76: which words are illegal, which of the two causes is found (RES first), and that every other word is a
command. -/
def Obligations.IllegalWordsAndTheirCause : Prop :=
  ∀ w : Word,
    (w.toNat / 16 ≠ 0 → decode w = .error .resBits) ∧
    (w.toNat / 16 = 0 → (w.toNat % 16 = 0 ∨ 10 ≤ w.toNat % 16) → decode w = .error .opReserved) ∧
    (1 ≤ w.toNat → w.toNat ≤ 9 → ∃ i, decode w = .ok i)

/-! ### The step (60_exceptions.md R180; 70_reset_and_hazards.md R203) -/

/-- R180: at a completion step (when it comes is the model's log 2), the machine runs exactly the command that LATCH
decodes to. -/
def Obligations.StepRunsTheLatchedCommand : Prop :=
  ∀ (s : State) (i : Instr), s.busy = true → (s.lag = 0 ∨ s.host = []) → decode s.latch = .ok i →
    step s = exec i s

/-- R80, R175, R180, R182: at a completion step, an illegal word in LATCH completes with ILLEGAL_CMD and its subcode,
RES_BITS (2) before OP_RESERVED (1), and changes nothing else. That the completion step comes at lag 0 or where the host
has no coming move is the model's choice (log 2). -/
def Obligations.IllegalWordCompletesWithIllegalCmd : Prop :=
  ∀ s : State, s.busy = true → (s.lag = 0 ∨ s.host = []) →
    (s.latch.toNat / 16 ≠ 0 → ∃ t, step s = .next t ∧ Failed s t 5 2) ∧
    (s.latch.toNat / 16 = 0 → (s.latch.toNat % 16 = 0 ∨ 10 ≤ s.latch.toNat % 16) →
      ∃ t, step s = .next t ∧ Failed s t 5 1)

/-- R180: no step ends in a fault or a refusal. -/
def Obligations.EveryStepAnswersNext : Prop := ∀ s : State, ∃ t, step s = .next t

/-- R203, R204, on the model's free lag (log 2): from a BUSY state the machine is IDLE again within lag + 1 steps. Where
no reset is among the host's coming moves, that is by the completion step of the accepted command, on its own word and
snapshot, and DONE is 1. -/
def Obligations.AcceptedCommandCompletes : Prop :=
  ∀ s : State, s.busy = true →
    ∃ (k : Nat) (t : State), k ≤ s.lag + 1 ∧ Sys2Proof.core.run k s = .next t ∧ t.busy = false ∧
      (.reset ∉ s.host → t.done = true ∧
        ∃ u : State, u.busy = true ∧ u.latch = s.latch ∧ SameSnapshot s u ∧ complete u = .next t)

/-- R45, R61, R200, on the model's schedule (log 2): while a host move goes before the completion, the running command's
word, snapshot, OUT and OUT_LEN stay as they are, whatever the move is (a reset apart). -/
def Obligations.SnapshotHeldWhileBusy : Prop :=
  ∀ (s : State) (m : HostMove) (rest : List HostMove), s.busy = true → s.lag ≠ 0 → s.host = m :: rest → m ≠ .reset →
    ∃ t, step s = .next t ∧ t.busy = true ∧ t.latch = s.latch ∧ SameSnapshot s t ∧ t.outLen = s.outLen ∧
      (∀ i, t.storeByte .out i = s.storeByte .out i) ∧ t.lag + 1 = s.lag

/-! ### The bus (20_memory.md) -/

/-- R53, R54, R58, R59, R67, with the host's moves, the replies and the schedule in the model's form (log 2, 3): where the
host's move is next, a read answers one word and changes nothing of CORE, and a write is `BusWrite` of its word. -/
def Obligations.HostTransactionTakesEffect : Prop :=
  ∀ (s : State) (off : Offset) (rest : List HostMove), (s.busy = false ∨ s.lag ≠ 0) →
    (s.host = .read off :: rest →
      step s = .next { s with host := rest, lag := s.lag - 1, replies := s.busRead off :: s.replies }) ∧
    (∀ w, s.host = .write off w :: rest →
      step s = .next (State.busWrite { s with host := rest, lag := s.lag - 1 } off w))

/-- R55: address bits [1:0] are ignored, by reads and by writes. -/
def Obligations.BusIgnoresLowAddressBits : Prop :=
  ∀ (s : State) (off off' : Offset) (w : Word), off.toNat / 4 = off'.toNat / 4 →
    s.busRead off = s.busRead off' ∧ s.busWrite off w = s.busWrite off' w

/-- R50: the window at BASE, and no other platform address, reaches CORE. -/
def Obligations.WindowIsFourMiBAtBase : Prop :=
  ∀ addr : Nat,
    (Config.base ≤ addr → addr < Config.base + 0x400000 →
      ∃ off, windowOffset addr = some off ∧ off.toNat = addr - Config.base) ∧
    (addr < Config.base ∨ Config.base + 0x400000 ≤ addr → windowOffset addr = none)

/-- 10_state.md R25 to R31: STATUS reads its fields at their bits, and 0 in bits 31:12. -/
def Obligations.StatusWordLayout : Prop :=
  ∀ s : State,
    (s.busRead 4).toNat =
      s.busy.toNat + 2 * s.done.toNat + 4 * s.err.toNat + 8 * s.wob.toNat + 16 * s.errcode.toNat + 256 * s.errinfo.toNat

/-- 10_state.md R24, R32 to R38: what the other registers read. -/
def Obligations.RegisterReadValues : Prop :=
  ∀ s : State,
    s.busRead 0x000 = 0 ∧ (s.busRead 0x008).toNat = s.keyLen.toNat ∧ (s.busRead 0x00C).toNat = s.ivLen.toNat ∧
    (s.busRead 0x010).toNat = s.dataLen.toNat ∧ (s.busRead 0x014).toNat = s.aadLen.toNat ∧
    (s.busRead 0x018).toNat = s.outLen.toNat ∧ (s.busRead 0x01C).toNat = Config.inMax ∧
    (s.busRead 0x020).toNat = Config.aadMax

/-- R54 (c), 10_state.md R23, R32 to R35: while IDLE a write to a length register stores exactly the bits of its field
and changes nothing else. -/
def Obligations.LengthRegisterWrites : Prop :=
  ∀ (s : State) (w : Word), s.busy = false →
    (∃ v, s.busWrite 0x008 w = { s with keyLen := v } ∧ v.toNat = w.toNat % 2 ^ 8) ∧
    (∃ v, s.busWrite 0x00C w = { s with ivLen := v } ∧ v.toNat = w.toNat % 2 ^ 8) ∧
    s.busWrite 0x010 w = { s with dataLen := w } ∧
    (∃ v, s.busWrite 0x014 w = { s with aadLen := v } ∧ v.toNat = w.toNat % 2 ^ 16)

/-- R52, R54 (d), R56: while IDLE a word written to the IN or AAD window puts lane i at byte offset 4k + i, if that
byte is mapped; no other byte of IN, AAD or OUT changes, and no register does. -/
def Obligations.BufferWriteLanes : Prop :=
  ∀ (s : State) (S : Store) (k : Nat) (w : Word), s.busy = false → (S = .inp ∨ S = .aad) → 4 * k < S.size →
    ∃ t, s.busWrite (BitVec.ofNat 22 (S.base + 4 * k)) w = t ∧
      (∀ i, i < 4 → 4 * k + i < S.size → (t.storeByte S (4 * k + i)).toNat = w.toNat / 256 ^ i % 256) ∧
      (∀ a, ¬ (S.base + 4 * k ≤ a ∧ a < S.base + 4 * k + 4 ∧ a < S.base + S.size) → t.ramByte a = s.ramByte a) ∧
      t = { s with mem := t.mem }

/-- R52, R53, R56: a word read from the IV, IN, AAD or OUT window holds byte 4k + i of the store in lane i, and 0 in a lane
whose byte is unmapped; a word that reaches no register and no mapped byte reads 0. -/
def Obligations.BufferReadLanes : Prop :=
  (∀ (s : State) (S : Store) (k i : Nat), (S = .iv ∨ S = .inp ∨ S = .aad ∨ S = .out) → 4 * k < S.size → i < 4 →
    (s.busRead (BitVec.ofNat 22 (S.base + 4 * k))).toNat / 256 ^ i % 256 =
      if 4 * k + i < S.size then (s.storeByte S (4 * k + i)).toNat else 0) ∧
  ∀ (s : State) (off : Offset) (o : Nat), o = off.toNat - off.toNat % 4 →
    ((0x24 ≤ o ∧ o < 0x40) ∨ (0x60 ≤ o ∧ o < 0x100000) ∨ (0x100000 + Config.inMax ≤ o ∧ o < 0x200000) ∨
      (0x200000 + Config.aadMax ≤ o ∧ o < 0x300000) ∨ 0x300000 + Config.outCap ≤ o) →
    s.busRead off = 0

/-- R54 (d), R56; 10_state.md R39, R40: while IDLE a word written to KEY or IV replaces the four bytes of that word, lane
i at byte 4k + i, and changes nothing else. -/
def Obligations.KeyAndIvWriteLanes : Prop :=
  ∀ (s : State) (k : Nat) (w : Word), s.busy = false → k < 4 →
    (∃ v, s.busWrite (BitVec.ofNat 22 (0x40 + 4 * k)) w = { s with key := v } ∧
      ∀ i : Fin 16, (v[i]).toNat = if i.val / 4 = k then w.toNat / 256 ^ (i.val % 4) % 256 else (s.key[i]).toNat) ∧
    (∃ v, s.busWrite (BitVec.ofNat 22 (0x50 + 4 * k)) w = { s with iv := v } ∧
      ∀ i : Fin 16, (v[i]).toNat = if i.val / 4 = k then w.toNat / 256 ^ (i.val % 4) % 256 else (s.iv[i]).toNat)

/-- 10_state.md R39: KEY reads 0 in every lane, and no bus read tells anything about it. -/
def Obligations.KeyNeverReadsBack : Prop :=
  (∀ (s : State) (off : Offset), 0x40 ≤ off.toNat → off.toNat < 0x50 → s.busRead off = 0) ∧
  ∀ (s : State) (k : Key16) (off : Offset), State.busRead { s with key := k } off = s.busRead off

/-- R60: a CMD write while IDLE accepts the word, whatever it is: LATCH, BUSY, the result fields and OUT_LEN change, and
nothing else of CORE does (WOB among it); an illegal word completes with ILLEGAL_CMD. -/
def Obligations.AcceptanceEffect : Prop :=
  ∀ (s : State) (w : Word), s.busy = false →
    ∃ t, s.busWrite 0 w = t ∧ t.latch = w ∧ t.busy = true ∧ t.done = false ∧ t.err = false ∧ t.errcode = 0 ∧
      t.errinfo = 0 ∧ t.outLen = 0 ∧ t.wob = s.wob ∧ SameSnapshot s t ∧ (∀ a, t.ramByte a = s.ramByte a) ∧
      t.host = s.host ∧ t.replies = s.replies ∧ t.epoch = s.epoch ∧
      ∀ why, decode w = .error why → ∃ u, complete t = .next u ∧ Failed t u 5 (illegalInfo why)

/-- R61: while BUSY a write to CMD, a length register or a mapped byte of KEY, IV, IN or AAD only sets WOB. -/
def Obligations.WriteWhileBusyIsDropped : Prop :=
  ∀ (s : State) (off : Offset) (w : Word) (o : Nat), s.busy = true → o = off.toNat - off.toNat % 4 →
    (o = 0 ∨ o = 0x008 ∨ o = 0x00C ∨ o = 0x010 ∨ o = 0x014 ∨ (0x40 ≤ o ∧ o < 0x60) ∨
      (0x100000 ≤ o ∧ o < 0x100000 + Config.inMax) ∨ (0x200000 ≤ o ∧ o < 0x200000 + Config.aadMax)) →
    s.busWrite off w = { s with wob := true }

/-- R62: a STATUS write in either phase: bit 1 clears DONE, ERR, ERRCODE and ERRINFO, bit 3 clears WOB, and nothing else
changes. -/
def Obligations.StatusWriteEffect : Prop :=
  ∀ (s : State) (w : Word),
    s.busWrite 4 w =
      { s with
        done := s.done && !w.getLsbD 1, err := s.err && !w.getLsbD 1,
        errcode := if w.getLsbD 1 then 0 else s.errcode, errinfo := if w.getLsbD 1 then 0 else s.errinfo,
        wob := s.wob && !w.getLsbD 3 }

/-- R54 (e), R63: a write to OUT_LEN, IN_MAX_R, AAD_MAX_R, the OUT window or an unmapped word is ignored in both
phases. -/
def Obligations.IgnoredWritesChangeNothing : Prop :=
  ∀ (s : State) (off : Offset) (w : Word) (o : Nat), o = off.toNat - off.toNat % 4 →
    ((0x018 ≤ o ∧ o < 0x40) ∨ (0x60 ≤ o ∧ o < 0x100000) ∨ (0x100000 + Config.inMax ≤ o ∧ o < 0x200000) ∨
      (0x200000 + Config.aadMax ≤ o ∧ o < 0x300000) ∨ 0x300000 ≤ o) →
    s.busWrite off w = s

/-- 10_state.md R43: no bus write changes a byte of OUT. -/
def Obligations.HostNeverWritesOut : Prop :=
  ∀ (s : State) (off : Offset) (w : Word) (i : Nat), (s.busWrite off w).storeByte .out i = s.storeByte .out i

/-- 30_encoding.md R84: the moves of `WRB IN` or `WRB AAD`, made while IDLE, put the line's bytes in the store, and 00 up
to the end of the last word. -/
def Obligations.WrbStoresItsBytes : Prop :=
  ∀ (s : State) (S : Store) (o : Nat) (bytes : List Byte), s.busy = false → (S = .inp ∨ S = .aad) →
    (HostLine.wrb S o bytes).wf = true → o + 4 * ((bytes.length + 3) / 4) ≤ S.size →
    ∃ t, (HostLine.wrb S o bytes).expand.foldl
        (fun u m => match m with | .write off w => u.busWrite off w | _ => u) s = t ∧
      (∀ i, i < 4 * ((bytes.length + 3) / 4) → t.storeByte S (o + i) = bytes.getD i 0) ∧
      t = { s with mem := t.mem }

/-- 30_encoding.md R84, with WAIT as one move of the model's list (log 3): one round of WAIT reads STATUS, and the loop
stays exactly while BUSY is 1. -/
def Obligations.WaitLoopsWhileBusy : Prop :=
  ∀ (s : State) (rest : List HostMove), (s.busy = false ∨ s.lag ≠ 0) → s.host = .wait :: rest →
    ∃ t, step s = .next t ∧ t.host = (if s.busy then .wait :: rest else rest) ∧ t.replies = s.busRead 4 :: s.replies

/-- 30_encoding.md R84: `RDB` yields the bytes of its store, lane 0 of each word first. -/
def Obligations.RdbYieldsTheBytes : Prop :=
  ∀ (s : State) (S : Store) (o k : Nat), (S = .iv ∨ S = .inp ∨ S = .aad ∨ S = .out) →
    (HostLine.rdb S o k).wf = true → o + k ≤ S.size →
    rdbYield k ((HostLine.rdb S o k).expand.map fun m => match m with | .read off => s.busRead off | _ => 0) =
      s.memRead S o k

/-- R68: while IDLE no host move but a CMD write, an acknowledge or a reset changes DONE, ERR, ERRCODE, ERRINFO, OUT_LEN
or a byte of OUT. -/
def Obligations.ResultStableUntilNextCommand : Prop :=
  ∀ (s : State) (m : HostMove) (rest : List HostMove), s.busy = false → s.host = m :: rest → m ≠ .reset →
    (∀ off w, m = .write off w → off.toNat / 4 ≠ 0 ∧ (off.toNat / 4 = 1 → w.getLsbD 1 = false)) →
    ∃ t, step s = .next t ∧ t.busy = false ∧ t.done = s.done ∧ t.err = s.err ∧ t.errcode = s.errcode ∧
      t.errinfo = s.errinfo ∧ t.outLen = s.outLen ∧ ∀ i, t.storeByte .out i = s.storeByte .out i

/-! ### Reset (70_reset_and_hazards.md) -/

/-- R195, with the model's own fields at the values of log 1, 2 and 3: what the reset state holds; IN, AAD and OUT hold
the drawn bytes. -/
def Obligations.ResetHoldsTheStatedValues : Prop :=
  State.reset.latch = 0 ∧ State.reset.busRead 4 = 0 ∧ State.reset.keyLen = 0 ∧ State.reset.ivLen = 0 ∧
  State.reset.dataLen = 0 ∧ State.reset.aadLen = 0 ∧ State.reset.outLen = 0 ∧
  State.reset.memRead .key 0 16 = List.replicate 16 0 ∧ State.reset.memRead .iv 0 16 = List.replicate 16 0 ∧
  ∀ a, State.reset.ramByte a = Config.drawnByte State.reset.epoch a

/-- R197: a reset pulse while BUSY (or IDLE) abandons the command: the reset values apply, with DONE 0, and the bytes of
IN, AAD and OUT are a fresh draw (log 1, 7). -/
def Obligations.ResetAbandonsTheCommand : Prop :=
  ∀ (s : State) (rest : List HostMove), (s.busy = false ∨ s.lag ≠ 0) → s.host = .reset :: rest →
    ∃ t, step s = .next t ∧ t.busy = false ∧ t.done = false ∧ t.err = false ∧ t.wob = false ∧ t.errcode = 0 ∧
      t.errinfo = 0 ∧ t.latch = 0 ∧ t.keyLen = 0 ∧ t.ivLen = 0 ∧ t.dataLen = 0 ∧ t.aadLen = 0 ∧ t.outLen = 0 ∧
      t.key = State.reset.key ∧ t.iv = State.reset.iv ∧ t.host = rest ∧ t.replies = s.replies ∧
      t.epoch = s.epoch + 1 ∧ ∀ a, t.ramByte a = Config.drawnByte (s.epoch + 1) a

/-! ### Invariants (10_state.md R49) -/

/-- R195, R49: the reset state meets the invariant. -/
def Obligations.ResetMeetsTheInvariant : Prop := Inv State.reset

/-- R49 (a) to (c), R43, R52: every step from a state that meets the invariant keeps it. -/
def Obligations.StepKeepsTheInvariant : Prop :=
  ∀ s t : State, Inv s → step s = .next t → Inv t

/-- R49 (d): DONE = 0 and BUSY = 0 come to hold together only by a reset or an acknowledge. -/
def Obligations.QuietOnlyAfterResetOrAcknowledge : Prop :=
  ∀ s t : State, (s.busy = true ∨ s.done = true) → step s = .next t → t.busy = false → t.done = false →
    ∃ rest, s.host = .reset :: rest ∨
      ∃ (off : Offset) (w : Word), s.host = .write off w :: rest ∧ off.toNat / 4 = 1 ∧ w.getLsbD 1 = true

/-! ### PAD, UNPAD, XOR (40_padding_xor.md) -/

/-- R105: PAD's word, and PAD on every input. -/
def Obligations.PadResult : Prop :=
  decode 0x00000001 = .ok .pad ∧ ∀ s : State,
    (s.dataLen.toNat ≤ Config.inMax →
      ∃ t y, exec .pad s = .next t ∧ Succeeded s t y ∧ y.length = 16 * (s.dataLen.toNat / 16 + 1) ∧
        ∀ i, i < y.length → y.getD i 0 = paddedByte s i) ∧
    (Config.inMax < s.dataLen.toNat → ∃ t, exec .pad s = .next t ∧ Failed s t 2 4)

/-- R106, with the checks of R103: UNPAD's word, and UNPAD on every input: well-formed padding is stripped, anything
else ends in PADDING, and a message beyond IN in LENGTH/CAP_IN. -/
def Obligations.UnpadResult : Prop :=
  decode 0x00000002 = .ok .unpad ∧ ∀ s : State,
    (s.dataLen.toNat ≤ Config.inMax →
      (∀ p, ValidPadding (s.storeByte .inp) s.dataLen.toNat p →
        ∃ t y, exec .unpad s = .next t ∧ Succeeded s t y ∧ y.length = s.dataLen.toNat - p ∧
          ∀ i, i < y.length → y.getD i 0 = s.storeByte .inp i) ∧
      ((∀ p, ¬ ValidPadding (s.storeByte .inp) s.dataLen.toNat p) → ∃ t, exec .unpad s = .next t ∧ Failed s t 3 0)) ∧
    (Config.inMax < s.dataLen.toNat → ∃ t, exec .unpad s = .next t ∧ Failed s t 2 4)

/-- R107: XOR's word, and XOR on every input; CAP_IN comes before CAP_AAD. -/
def Obligations.XorResult : Prop :=
  decode 0x00000003 = .ok .xor ∧ ∀ s : State,
    (s.dataLen.toNat ≤ Config.inMax → s.dataLen.toNat ≤ Config.aadMax →
      ∃ t y, exec .xor s = .next t ∧ Succeeded s t y ∧ y.length = s.dataLen.toNat ∧
        ∀ i, i < y.length → y.getD i 0 = s.storeByte .inp i ^^^ s.storeByte .aad i) ∧
    (Config.inMax < s.dataLen.toNat → ∃ t, exec .xor s = .next t ∧ Failed s t 2 4) ∧
    (s.dataLen.toNat ≤ Config.inMax → Config.aadMax < s.dataLen.toNat → ∃ t, exec .xor s = .next t ∧ Failed s t 2 5)

/-- R101: the XOR datapath is its own inverse and commutes. -/
def Obligations.XorIsSelfInverse : Prop :=
  ∀ (n : Nat) (x y : List Byte), n ≤ x.length → n ≤ y.length →
    xorN n (xorN n x y) y = x.take n ∧ xorN n x y = xorN n y x

/-- R102, R103, as R125 (a) uses them: unpadding undoes padding. -/
def Obligations.UnpadUndoesPad : Prop := ∀ x : List Byte, unpad16 (pad16 x) = .ok x

/-! ### CBC (41_cbc.md) -/

/-- R121, R123: CBC_ENC where its checks pass: block j of the output is `E(k, P_j ⊕ C_(j-1))`, C_(-1) the IV, over the
padded message. -/
def Obligations.CbcEncResult : Prop :=
  ∀ s : State, Ready .cbcEnc s →
    ∃ t y, exec .cbcEnc s = .next t ∧ Succeeded s t y ∧ y.length = 16 * (s.dataLen.toNat / 16 + 1) ∧
      ∀ j, j < s.dataLen.toNat / 16 + 1 →
        blockAt (fun i => y.getD i 0) j =
          Config.E s.key (blockXor (blockAt (paddedByte s) j)
            (if j = 0 then s.iv else blockAt (fun i => y.getD i 0) (j - 1)))

/-- R122, R124: CBC_DEC where its checks pass: the decrypted bytes less their padding, or PADDING where they end in none
(n = 0 among them). -/
def Obligations.CbcDecResult : Prop :=
  ∀ s : State, Ready .cbcDec s →
    (∀ p, ValidPadding (cbcPlainByte s) s.dataLen.toNat p →
      ∃ t y, exec .cbcDec s = .next t ∧ Succeeded s t y ∧ y.length = s.dataLen.toNat - p ∧
        ∀ i, i < y.length → y.getD i 0 = cbcPlainByte s i) ∧
    ((∀ p, ¬ ValidPadding (cbcPlainByte s) s.dataLen.toNat p) → ∃ t, exec .cbcDec s = .next t ∧ Failed s t 3 0)

/-- R122: CBC decryption of the blocks undoes CBC encryption, by the laws of E and D alone. -/
def Obligations.CbcBlocksRoundTrip : Prop :=
  ∀ (k : Key16) (iv : Block16) (P : List Block16), cbcDecBlocks k iv (cbcEncBlocks k iv P) = P

/-- R125 (a), with the capacity of R7: CBC_DEC of what CBC_ENC put in OUT gives the message back, or LENGTH/CAP_IN where
the padded ciphertext no longer fits IN. -/
def Obligations.CbcRoundTrip : Prop :=
  ∀ s s' t : State, Ready .cbcEnc s → exec .cbcEnc s = .next t →
    s'.key = s.key → s'.iv = s.iv → s'.keyLen = 16 → s'.ivLen = 16 → s'.dataLen = t.outLen →
    (∀ i, i < t.outLen.toNat → s'.storeByte .inp i = t.storeByte .out i) →
    (t.outLen.toNat ≤ Config.inMax →
      ∃ t' y, exec .cbcDec s' = .next t' ∧ Succeeded s' t' y ∧ y.length = s.dataLen.toNat ∧
        ∀ i, i < y.length → y.getD i 0 = s.storeByte .inp i) ∧
    (Config.inMax < t.outLen.toNat → ∃ t', exec .cbcDec s' = .next t' ∧ Failed s' t' 2 4)

/-- R125 (c): messages that share their first 16q bytes have CBC_ENC outputs, under the same key and IV, that do. -/
def Obligations.CbcCommonPrefix : Prop :=
  ∀ (s s' t t' : State) (q : Nat), Ready .cbcEnc s → Ready .cbcEnc s' → s'.key = s.key → s'.iv = s.iv →
    16 * q ≤ s.dataLen.toNat → 16 * q ≤ s'.dataLen.toNat →
    (∀ i, i < 16 * q → s'.storeByte .inp i = s.storeByte .inp i) →
    exec .cbcEnc s = .next t → exec .cbcEnc s' = .next t' →
    ∀ i, i < 16 * q → t'.storeByte .out i = t.storeByte .out i

/-! ### CTR (42_ctr.md) -/

/-- R130: the increment loop is one addition modulo 2^128 on the big-endian number. -/
def Obligations.CounterIncrementClosedForm : Prop :=
  ∀ b : Block16, ctrInc b = counterAt b 1

/-- R131 to R134: CTR_ENC and CTR_DEC where their checks pass: output byte i is input byte i XOR byte `i mod 16` of
`E(k, be_16((int_be(iv) + i div 16) mod 2^128))`. -/
def Obligations.CtrResult : Prop :=
  ∀ (s : State) (c : Instr), (c = .ctrEnc ∨ c = .ctrDec) → Ready c s →
    ∃ t y, exec c s = .next t ∧ Succeeded s t y ∧ y.length = s.dataLen.toNat ∧
      ∀ i, i < y.length → y.getD i 0 = s.storeByte .inp i ^^^ ctrKeyByte s i

/-- R134: CTR_DEC has a word of its own and is CTR_ENC on every state. -/
def Obligations.CtrDecIsCtrEnc : Prop :=
  decode 0x00000007 = .ok .ctrDec ∧ ∀ s : State, exec .ctrDec s = exec .ctrEnc s

/-- R135 (a): either command applied to the other's output, under the same key and IV, gives the input back. -/
def Obligations.CtrRoundTrip : Prop :=
  ∀ (s s' t : State) (c c' : Instr), (c = .ctrEnc ∨ c = .ctrDec) → (c' = .ctrEnc ∨ c' = .ctrDec) →
    Ready c s → exec c s = .next t →
    s'.key = s.key → s'.iv = s.iv → s'.keyLen = 16 → s'.ivLen = 16 → s'.dataLen = t.outLen →
    (∀ i, i < t.outLen.toNat → s'.storeByte .inp i = t.storeByte .out i) →
    ∃ t' y, exec c' s' = .next t' ∧ Succeeded s' t' y ∧ y.length = s.dataLen.toNat ∧
      ∀ i, i < y.length → y.getD i 0 = s.storeByte .inp i

/-- R135 (d): output byte i depends on input byte i only, and a flipped input bit flips exactly that output bit. -/
def Obligations.CtrByteIndependence : Prop :=
  ∀ (s s' t t' : State) (c : Instr), (c = .ctrEnc ∨ c = .ctrDec) → Ready c s → Ready c s' →
    s'.key = s.key → s'.iv = s.iv → exec c s = .next t → exec c s' = .next t' →
    ∀ i, i < s.dataLen.toNat → i < s'.dataLen.toNat →
      t.storeByte .out i ^^^ t'.storeByte .out i = s.storeByte .inp i ^^^ s'.storeByte .inp i

/-! ### CCM (30_encoding.md R87 to R93; 43_ccm.md) -/

/-- R146 to R149, R153: CCM_ENC where its checks pass: the payload XOR the keystream from counter 1, then the tag XOR
S_0. -/
def Obligations.CcmEncResult : Prop :=
  ∀ s : State, Ready .ccmEnc s →
    ∃ t y, exec .ccmEnc s = .next t ∧ Succeeded s t y ∧ y.length = s.dataLen.toNat + 16 ∧
      (∀ i, i < s.dataLen.toNat → y.getD i 0 = s.storeByte .inp i ^^^ ccmKeyByte s i) ∧
      blockAt (fun i => y.getD (s.dataLen.toNat + i) 0) 0 =
        blockXor (ccmTag s s.dataLen.toNat (s.storeByte .inp)) (streamBlock s 0)

/-- R146 to R151, R154: CCM_DEC where its checks pass: the payload where the recomputed tag equals the recovered one,
AUTH where it does not, and then nothing of the payload is left anywhere. -/
def Obligations.CcmDecResult : Prop :=
  ∀ (s : State) (plen : Nat) (P : Nat → Byte) (T' : Block16), Ready .ccmDec s → plen = s.dataLen.toNat - 16 →
    P = (fun i => s.storeByte .inp i ^^^ ccmKeyByte s i) →
    T' = blockXor (blockAt (fun i => s.storeByte .inp (plen + i)) 0) (streamBlock s 0) →
    (ccmTag s plen P = T' →
      ∃ t y, exec .ccmDec s = .next t ∧ Succeeded s t y ∧ y.length = plen ∧ ∀ i, i < plen → y.getD i 0 = P i) ∧
    (ccmTag s plen P ≠ T' → ∃ t, exec .ccmDec s = .next t ∧ Failed s t 4 0)

/-- R156, with the capacity of R7: CCM_DEC of what CCM_ENC put in OUT, under the same key, nonce and associated data,
gives the payload back, or LENGTH/CAP_IN where payload and tag no longer fit IN. -/
def Obligations.CcmRoundTrip : Prop :=
  ∀ s s' t : State, Ready .ccmEnc s → exec .ccmEnc s = .next t →
    s'.key = s.key → s'.keyLen = 16 → s'.ivLen = s.ivLen → s'.aadLen = s.aadLen →
    (∀ i, i < s.ivLen.toNat → s'.storeByte .iv i = s.storeByte .iv i) →
    (∀ i, i < s.aadLen.toNat → s'.storeByte .aad i = s.storeByte .aad i) →
    s'.dataLen = t.outLen → (∀ i, i < t.outLen.toNat → s'.storeByte .inp i = t.storeByte .out i) →
    (t.outLen.toNat ≤ Config.inMax →
      ∃ t' y, exec .ccmDec s' = .next t' ∧ Succeeded s' t' y ∧ y.length = s.dataLen.toNat ∧
        ∀ i, i < y.length → y.getD i 0 = s.storeByte .inp i) ∧
    (Config.inMax < t.outLen.toNat → ∃ t', exec .ccmDec s' = .next t' ∧ Failed s' t' 2 4)

/-- R155 (a), (b) and its last case: a changed tag, a payload changed in one chunk, or associated data changed in one
chunk of AADS, is always found: AUTH, for every cipher. -/
def Obligations.CcmTamperDetection : Prop :=
  ∀ s s' t : State, Ready .ccmEnc s → exec .ccmEnc s = .next t →
    s'.key = s.key → s'.keyLen = 16 → s'.ivLen = s.ivLen → s'.aadLen = s.aadLen →
    (∀ i, i < s.ivLen.toNat → s'.storeByte .iv i = s.storeByte .iv i) →
    s'.dataLen = t.outLen → t.outLen.toNat ≤ Config.inMax →
    ((∀ i, i < s.aadLen.toNat → s'.storeByte .aad i = s.storeByte .aad i) →
      (∀ i, i < s.dataLen.toNat → s'.storeByte .inp i = t.storeByte .out i) →
      (∃ i, s.dataLen.toNat ≤ i ∧ i < s.dataLen.toNat + 16 ∧ s'.storeByte .inp i ≠ t.storeByte .out i) →
      ∃ t', exec .ccmDec s' = .next t' ∧ Failed s' t' 4 0) ∧
    (∀ q, (∀ i, i < s.aadLen.toNat → s'.storeByte .aad i = s.storeByte .aad i) →
      (∀ i, s.dataLen.toNat ≤ i → i < s.dataLen.toNat + 16 → s'.storeByte .inp i = t.storeByte .out i) →
      (∀ i, i < s.dataLen.toNat → i / 16 ≠ q → s'.storeByte .inp i = t.storeByte .out i) →
      (∃ i, i < s.dataLen.toNat ∧ s'.storeByte .inp i ≠ t.storeByte .out i) →
      ∃ t', exec .ccmDec s' = .next t' ∧ Failed s' t' 4 0) ∧
    (∀ q, (∀ i, i < s.dataLen.toNat + 16 → s'.storeByte .inp i = t.storeByte .out i) →
      (∀ i, i < s.aadLen.toNat → (i + 2) / 16 ≠ q → s'.storeByte .aad i = s.storeByte .aad i) →
      (∃ i, i < s.aadLen.toNat ∧ s'.storeByte .aad i ≠ s.storeByte .aad i) →
      ∃ t', exec .ccmDec s' = .next t' ∧ Failed s' t' 4 0)

/-- R157: byte 0 of B0 is at least 0x38 and byte 0 of every counter block at most 7, so the MAC's seed block is never a
counter block, of the same or of another message. -/
def Obligations.SeedBlockIsNoCounterBlock : Prop :=
  ∀ (nonce nonce' : List Byte) (plen i : Nat) (h : Bool), 7 ≤ nonce.length → nonce.length ≤ 13 →
    7 ≤ nonce'.length → nonce'.length ≤ 13 →
    0x38 ≤ ((ccmB0 nonce plen h)[0]).toNat ∧ ((ccmCounterBlock nonce' i)[0]).toNat ≤ 7 ∧
      ccmB0 nonce plen h ≠ ccmCounterBlock nonce' i

/-- R152: under the length check no counter of a message wraps, so its counter blocks are all different. -/
def Obligations.CounterBlocksAreDistinct : Prop :=
  ∀ (nonce : List Byte) (plen i j : Nat), 7 ≤ nonce.length → nonce.length ≤ 13 →
    plen < 2 ^ (8 * (15 - nonce.length)) → i ≤ (plen + 15) / 16 → j ≤ (plen + 15) / 16 →
    ccmCounterBlock nonce i = ccmCounterBlock nonce j → i = j

/-! ### Errors (60_exceptions.md) -/

/-- R171, R172, R176, R177: the checks of CBC_ENC, CBC_DEC, CTR_ENC and CTR_DEC that precede the data, in their order. -/
def Obligations.CipherCommandChecks : Prop :=
  ∀ (s : State) (c : Instr), (c = .cbcEnc ∨ c = .cbcDec ∨ c = .ctrEnc ∨ c = .ctrDec) →
    (Config.inMax < s.dataLen.toNat → ∃ t, exec c s = .next t ∧ Failed s t 2 4) ∧
    (CapIn s → s.keyLen ≠ 16 → ∃ t, exec c s = .next t ∧ Failed s t 1 0) ∧
    (CapIn s → s.keyLen = 16 → s.ivLen ≠ 16 → ∃ t, exec c s = .next t ∧ Failed s t 2 1) ∧
    (CapIn s → s.keyLen = 16 → s.ivLen = 16 → c = .cbcDec → s.dataLen.toNat % 16 ≠ 0 →
      ∃ t, exec c s = .next t ∧ Failed s t 2 2)

/-- R140, R142, R171, R172, R176, R177: the checks of CCM_ENC and CCM_DEC, in their order; `plen` is the payload
length. -/
def Obligations.CcmChecks : Prop :=
  ∀ (s : State) (c : Instr) (plen : Nat),
    ((c = .ccmEnc ∧ plen = s.dataLen.toNat) ∨ (c = .ccmDec ∧ plen = s.dataLen.toNat - 16)) →
    (Config.inMax < s.dataLen.toNat → ∃ t, exec c s = .next t ∧ Failed s t 2 4) ∧
    (CapIn s → Config.aadMax < s.aadLen.toNat → ∃ t, exec c s = .next t ∧ Failed s t 2 5) ∧
    (CapIn s → s.aadLen.toNat ≤ Config.aadMax → s.keyLen ≠ 16 → ∃ t, exec c s = .next t ∧ Failed s t 1 0) ∧
    (CapIn s → s.aadLen.toNat ≤ Config.aadMax → s.keyLen = 16 → (s.ivLen.toNat < 7 ∨ 13 < s.ivLen.toNat) →
      ∃ t, exec c s = .next t ∧ Failed s t 2 1) ∧
    (CapIn s → s.aadLen.toNat ≤ Config.aadMax → s.keyLen = 16 → 7 ≤ s.ivLen.toNat → s.ivLen.toNat ≤ 13 →
      c = .ccmDec → s.dataLen.toNat < 16 → ∃ t, exec c s = .next t ∧ Failed s t 2 3) ∧
    (CapIn s → s.aadLen.toNat ≤ Config.aadMax → s.keyLen = 16 → 7 ≤ s.ivLen.toNat → s.ivLen.toNat ≤ 13 →
      (c = .ccmDec → 16 ≤ s.dataLen.toNat) → 2 ^ (8 * (15 - s.ivLen.toNat)) ≤ plen →
      ∃ t, exec c s = .next t ∧ Failed s t 2 6)

/-- R142, R177: CCM_ENC and CCM_DEC report LENGTH/MSGLEN exactly where the checks before it pass, the nonce has 13 bytes
and the payload (`plen`) is over 65535 bytes long: a payload within IN fits L bytes otherwise (R7). -/
def Obligations.MsgLenNeedsThirteenByteNonce : Prop :=
  ∀ (s t : State) (c : Instr) (plen : Nat),
    ((c = .ccmEnc ∧ plen = s.dataLen.toNat) ∨ (c = .ccmDec ∧ plen = s.dataLen.toNat - 16)) →
    exec c s = .next t →
    (t.err = true ∧ t.errcode = 2 ∧ t.errinfo = 6 ↔
      CapIn s ∧ s.aadLen.toNat ≤ Config.aadMax ∧ s.keyLen = 16 ∧ s.ivLen = 13 ∧ 65535 < plen)

/-- R182, R179: every error is precise: a completion that ends with ERR set leaves every byte of IN, AAD and OUT and every
register but STATUS as it stood before the completion step, and OUT_LEN 0. (That it stood so since acceptance, OUT_LEN 0
among it, is R61: `SnapshotHeldWhileBusy` and `AcceptanceEffect`.) -/
def Obligations.ErrorsArePrecise : Prop :=
  ∀ s t : State, complete s = .next t → t.err = true → Failed s t t.errcode t.errinfo

/-- R170: the code of every completion: 0 of a success, and of an error one of five, each raised only by the commands of
its row. -/
def Obligations.ErrorCodesPerCommand : Prop :=
  ∀ s t : State, complete s = .next t →
    (t.err = false → t.errcode = 0 ∧ ∃ c, decode s.latch = .ok c) ∧
    (t.err = true →
      (t.errcode = 1 ∧ ∃ c, decode s.latch = .ok c ∧ c ≠ .pad ∧ c ≠ .unpad ∧ c ≠ .xor) ∨
      (t.errcode = 2 ∧ ∃ c, decode s.latch = .ok c) ∨
      (t.errcode = 3 ∧ (decode s.latch = .ok .unpad ∨ decode s.latch = .ok .cbcDec)) ∨
      (t.errcode = 4 ∧ decode s.latch = .ok .ccmDec) ∨
      (t.errcode = 5 ∧ ∃ why, decode s.latch = .error why))

/-- R181, R7: no command's output is longer than OUT, and a completion is always a success with ERR clear or an error
with OUT_LEN 0. -/
def Obligations.OutputFitsOut : Prop :=
  ∀ (c : Instr) (s t : State), exec c s = .next t → t.outLen.toNat ≤ Config.outCap ∧ (t.err = true → t.outLen = 0)

/-- R45, R47: a command's result depends on the snapshot only: two states with the same snapshot, whatever else they
hold, end with the same STATUS result, OUT_LEN and OUT[0..OUT_LEN). -/
def Obligations.ResultDependsOnSnapshotOnly : Prop :=
  ∀ (c : Instr) (s s' t t' : State), SameSnapshot s s' → exec c s = .next t → exec c s' = .next t' →
    t'.err = t.err ∧ t'.errcode = t.errcode ∧ t'.errinfo = t.errinfo ∧ t'.outLen = t.outLen ∧
      ∀ i, i < t.outLen.toNat → t'.storeByte .out i = t.storeByte .out i
end

