-- ==== Sys2Proof/Laws/Datapath.lean ====
section
/-! SUPPORT. What each datapath function answers: its length and its bytes. -/

namespace Sys2Proof.Machine

/-! ### Blocks -/

@[simp] theorem blockXor_getElem (x y : Block16) (i : Nat) (h : i < 16) : (blockXor x y)[i] = x[i] ^^^ y[i] := by
  simp [blockXor]

@[simp] theorem blockOf_getElem (x : List Byte) (i : Nat) (h : i < 16) : (blockOf x)[i] = x.getD i 0 := by
  simp [blockOf]

theorem block_toList_getD (b : Block16) (i : Nat) (h : i < 16) : b.toList.getD i 0 = b[i] := by
  simp [List.getD_eq_getElem?_getD, h]

@[simp] theorem blockOf_toList (b : Block16) : blockOf b.toList = b := by
  ext i h
  rw [blockOf_getElem _ _ h, block_toList_getD _ _ h]

theorem blockXor_comm (x y : Block16) : blockXor x y = blockXor y x := by
  ext i h
  simp [BitVec.xor_comm]

@[simp] theorem blockXor_cancel (x y : Block16) : blockXor (blockXor x y) y = x := by
  ext i h
  simp

/-- XOR with a fixed block keeps different blocks different. -/
@[simp] theorem blockXor_left_inj (x x' y : Block16) : blockXor x y = blockXor x' y ↔ x = x' :=
  ⟨fun h => by rw [← blockXor_cancel x y, h, blockXor_cancel], fun h => by rw [h]⟩

@[simp] theorem blockXor_right_inj (x y y' : Block16) : blockXor x y = blockXor x y' ↔ y = y' := by
  rw [blockXor_comm x y, blockXor_comm x y', blockXor_left_inj]

@[simp] theorem takeBlocks_length (m : Nat) (x : List Byte) : (takeBlocks m x).length = m := by
  induction m generalizing x with
  | zero => rfl
  | succ m ih => simp [takeBlocks, ih]

theorem takeBlocks_getElem (m : Nat) (x : List Byte) (j : Nat) (h : j < (takeBlocks m x).length) :
    (takeBlocks m x)[j] = blockOf ((x.drop (16 * j)).take 16) := by
  induction m generalizing x j with
  | zero => simp [takeBlocks] at h
  | succ m ih =>
    cases j with
    | zero => simp [takeBlocks]
    | succ j =>
      simp only [takeBlocks, List.getElem_cons_succ]
      rw [ih, List.drop_drop, Nat.mul_succ, Nat.add_comm]

@[simp] theorem blocks_length (x : List Byte) : (blocks x).length = x.length / 16 := by simp [blocks]

/-- Byte i of block j of a byte sequence is its byte 16j + i. -/
theorem blocks_getElem_getElem (x : List Byte) (j i : Nat) (hj : j < (blocks x).length) (hi : i < 16) :
    ((blocks x)[j])[i] = x.getD (16 * j + i) 0 := by
  have e : (blocks x)[j] = blockOf ((x.drop (16 * j)).take 16) := takeBlocks_getElem _ _ _ _
  rw [e, blockOf_getElem _ _ hi]
  simp [List.getD_eq_getElem?_getD, hi]

@[simp] theorem unblocks_nil : unblocks [] = [] := rfl

@[simp] theorem unblocks_cons (b : Block16) (bs : List Block16) : unblocks (b :: bs) = b.toList ++ unblocks bs := rfl

@[simp] theorem unblocks_length (bs : List Block16) : (unblocks bs).length = 16 * bs.length := by
  induction bs with
  | nil => rfl
  | cons b bs ih => simp [ih]; omega

/-- Byte i of a sequence of blocks is byte i mod 16 of block i div 16. -/
theorem unblocks_getD (bs : List Block16) (i : Nat) (h : i / 16 < bs.length) :
    (unblocks bs).getD i 0 = (bs[i / 16])[i % 16]'(Nat.mod_lt _ (by decide)) := by
  induction bs generalizing i with
  | nil => simp at h
  | cons b bs ih =>
    simp only [unblocks_cons]
    by_cases hi : i < 16
    · rw [List.getD_append _ _ _ _ (by simpa using hi), block_toList_getD _ _ hi]
      simp only [show i / 16 = 0 by omega, show i % 16 = i by omega, List.getElem_cons_zero]
    · have e : i / 16 = (i - 16) / 16 + 1 := by omega
      rw [List.getD_append_right _ _ _ _ (by simpa using by omega)]
      simp only [Vector.length_toList, e, List.getElem_cons_succ]
      rw [ih (i - 16) (by simp only [List.length_cons] at h; omega)]
      simp only [show (i - 16) % 16 = i % 16 by omega]

/-- Cutting a sequence of blocks gives the blocks back. -/
@[simp] theorem blocks_unblocks (bs : List Block16) : blocks (unblocks bs) = bs := by
  apply List.ext_getElem
  · simp
  · intro j h1 h2
    ext i hi
    rw [blocks_getElem_getElem _ _ _ h1 hi, unblocks_getD _ _ (by omega)]
    simp only [show (16 * j + i) / 16 = j by omega, show (16 * j + i) % 16 = i by omega]

/-- The blocks of a whole number of blocks give the byte sequence back. -/
theorem unblocks_blocks (x : List Byte) (h : x.length % 16 = 0) : unblocks (blocks x) = x := by
  apply List.ext_getElem
  · simp; omega
  · intro i h1 h2
    have e := unblocks_getD (blocks x) i (by rw [blocks_length]; omega)
    rw [blocks_getElem_getElem _ _ _ _ (Nat.mod_lt _ (by decide)), Nat.div_add_mod,
      List.getD_eq_getElem _ _ h1, List.getD_eq_getElem _ _ h2] at e
    exact e

/-! ### Byte XOR -/

theorem xorN_length (n : Nat) (x y : List Byte) (hx : n ≤ x.length) (hy : n ≤ y.length) :
    (xorN n x y).length = n := by
  simp [xorN]; omega

theorem xorN_getD (n : Nat) (x y : List Byte) (i : Nat) (h : i < n) (hx : i < x.length) (hy : i < y.length) :
    (xorN n x y).getD i 0 = x.getD i 0 ^^^ y.getD i 0 := by
  simp [xorN, List.getD_eq_getElem?_getD, h, hx, hy]

/-! ### Padding -/

@[simp] theorem pad16_length (x : List Byte) : (pad16 x).length = 16 * (x.length / 16 + 1) := by
  simp only [pad16, padLength, List.length_append, List.length_replicate]; omega

theorem pad16_getD (x : List Byte) (i : Nat) (h : i < (pad16 x).length) :
    (pad16 x).getD i 0 = if i < x.length then x.getD i 0 else BitVec.ofNat 8 (16 - x.length % 16) := by
  simp only [pad16, padLength, List.length_append, List.length_replicate] at h ⊢
  split
  · rw [List.getD_append _ _ _ _ ‹_›]
  · rw [List.getD_append_right _ _ _ _ (by omega), List.getD_eq_getElem?_getD, List.getElem?_replicate,
      if_pos (by omega), Option.getD_some]

@[simp] theorem zpad16_length (x : List Byte) : (zpad16 x).length = 16 * ((x.length + 15) / 16) := by
  simp only [zpad16, zpadLength, List.length_append, List.length_replicate]; omega

theorem zpad16_getD (x : List Byte) (i : Nat) : (zpad16 x).getD i 0 = x.getD i 0 := by
  simp only [zpad16]
  by_cases h : i < x.length
  · rw [List.getD_append _ _ _ _ h]
  · rw [List.getD_append_right _ _ _ _ (by omega), List.getD_eq_default x _ (by omega)]
    simp [List.getD_eq_getElem?_getD, List.getElem?_replicate]
    split <;> rfl

/-- `unpad16` either strips the p bytes its last byte counts, which all are p, or raises PADDING. -/
theorem unpad16_cases (x : List Byte) :
    (∃ p, 1 ≤ p ∧ p ≤ 16 ∧ p ≤ x.length ∧ p = lastByte x ∧ (∀ b ∈ x.drop (x.length - p), b.toNat = p) ∧
      unpad16 x = .ok (x.take (x.length - p))) ∨
    unpad16 x = .error .padding := by
  unfold unpad16
  repeat' split
  all_goals first | exact .inr rfl | skip
  rename_i h0 h1 h2 h3 h4
  refine .inl ⟨lastByte x, by omega, by omega, by omega, rfl, fun b hb => ?_, rfl⟩
  by_contra hne
  exact h4 (List.any_eq_true.2 ⟨b, hb, by simpa using hne⟩)

/-! ### Big-endian integers -/

@[simp] theorem beBytes_length (L v : Nat) : (beBytes L v).length = L := by
  induction L with
  | zero => rfl
  | succ L ih => simp [beBytes, ih]

theorem beBytes_getD (L v j : Nat) (h : j < L) : (beBytes L v).getD j 0 = BitVec.ofNat 8 (v / 256 ^ (L - 1 - j)) := by
  induction L generalizing j with
  | zero => omega
  | succ L ih =>
    cases j with
    | zero => simp [beBytes]
    | succ j =>
      simp only [beBytes, List.getD_cons_succ]
      rw [ih j (by omega)]
      congr 3
      omega

/-! ### Keystreams -/

theorem streamXor_length (ks : List Block16) (x : List Byte) (h : x.length ≤ 16 * ks.length) :
    (streamXor ks x).length = x.length := by
  induction ks generalizing x with
  | nil => simp at h; simp [streamXor, h]
  | cons k ks ih =>
    simp only [streamXor, List.length_append]
    rw [ih _ (by simp only [List.length_drop, List.length_cons] at h ⊢; omega),
      xorN_length _ _ _ (by omega) (by simp)]
    simp only [List.length_drop]; omega

/-- Byte i of a stream is the input's byte i XOR byte i mod 16 of keystream block i div 16. -/
theorem streamXor_getD (ks : List Block16) (x : List Byte) (i : Nat) (hx : i < x.length) (hk : i / 16 < ks.length) :
    (streamXor ks x).getD i 0 = x.getD i 0 ^^^ (ks[i / 16])[i % 16]'(Nat.mod_lt _ (by decide)) := by
  induction ks generalizing x i with
  | nil => simp at hk
  | cons k ks ih =>
    simp only [streamXor]
    have hl : (xorN (min 16 x.length) x k.toList).length = min 16 x.length := xorN_length _ _ _ (by omega) (by simp)
    by_cases hi : i < 16
    · rw [List.getD_append _ _ _ _ (by omega), xorN_getD _ _ _ _ (by omega) hx (by simpa using hi),
        block_toList_getD _ _ hi]
      simp only [show i / 16 = 0 by omega, show i % 16 = i by omega, List.getElem_cons_zero]
    · have e : i / 16 = (i - 16) / 16 + 1 := by omega
      rw [List.getD_append_right _ _ _ _ (by omega), hl, show i - min 16 x.length = i - 16 by omega,
        ih _ _ (by simp only [List.length_drop]; omega) (by simp only [List.length_cons] at hk; omega)]
      simp only [e, List.getElem_cons_succ, show (i - 16) % 16 = i % 16 by omega]
      congr 1
      simp [List.getD_eq_getElem?_getD, show 16 + (i - 16) = i by omega]

/-! ### The tag comparison -/

theorem foldl_or_eq_zero (l : List Byte) (acc : Byte) :
    l.foldl (· ||| ·) acc = 0 ↔ acc = 0 ∧ ∀ b ∈ l, b = 0 := by
  induction l generalizing acc with
  | nil => simp
  | cons b l ih =>
    simp only [List.foldl_cons, ih, List.mem_cons, forall_eq_or_imp]
    rw [show acc ||| b = 0 ↔ acc = 0 ∧ b = 0 from BitVec.or_eq_zero_iff]; tauto

/-- 43_ccm.md R150: the comparison is equality of all sixteen bytes. -/
theorem tagEq_iff (x y : Block16) : tagEq x y = true ↔ x = y := by
  simp only [tagEq, beq_iff_eq, foldl_or_eq_zero, true_and]
  constructor
  · intro h
    ext i hi
    have := h (blockXor x y)[i] (by simpa only [Vector.mem_toList_iff] using Vector.getElem_mem hi)
    rw [blockXor_getElem _ _ _ hi] at this
    rw [BitVec.xor_eq_zero_iff.1 this]
  · rintro rfl b hb
    obtain ⟨i, hi, rfl⟩ := List.getElem_of_mem hb
    simp

/-! ### Store reads -/

@[simp] theorem State.memRead_length (s : State) (S : Store) (off n : Nat) : (s.memRead S off n).length = n := by
  simp [State.memRead]

theorem State.memRead_getD (s : State) (S : Store) (off n i : Nat) (h : i < n) :
    (s.memRead S off n).getD i 0 = s.storeByte S (off + i) := by
  simp [State.memRead, List.getD_eq_getElem?_getD, h]

end Sys2Proof.Machine
end

