-- ==== Sys2Proof/Laws/Config.lean ====
section
/-! SUPPORT. What is known of the configuration: the cipher's two laws (00_scope.md R9) and the ranges of the
parameters (R7, R8). -/

namespace Sys2Proof

/-- R9: `D(k, E(k, b)) = b`. -/
@[simp] theorem Config.D_E (k : Key16) (b : Block16) : Config.D k (Config.E k b) = b :=
  (Config.cipher k).symm_apply_apply b

/-- R9: `E(k, D(k, b)) = b`. -/
@[simp] theorem Config.E_D (k : Key16) (b : Block16) : Config.E k (Config.D k b) = b :=
  (Config.cipher k).apply_symm_apply b

/-- R9: `E(k, ·)` keeps different blocks different. -/
@[simp] theorem Config.E_inj (k : Key16) (b b' : Block16) : Config.E k b = Config.E k b' ↔ b = b' :=
  (Config.cipher k).injective.eq_iff

theorem Config.inMax_mod : Config.inMax % 16 = 0 := by unfold Config.inMax; omega

theorem Config.inMax_ge : 16 ≤ Config.inMax := by unfold Config.inMax; omega

theorem Config.inMax_le : Config.inMax ≤ 0xFFFF0 := by
  have := Config.inUnits.isLt
  unfold Config.inMax; omega

theorem Config.aadMax_le : Config.aadMax ≤ 65535 := by
  have := Config.aadCap.isLt
  unfold Config.aadMax; omega

theorem Config.outCap_eq : Config.outCap = Config.inMax + 16 := rfl

end Sys2Proof
end

