-- ==== Sys2Proof/Laws/Memory.lean ====
section
/-! SUPPORT. The canonical form of memory: every memory operation keeps it, and the reset state has it. -/

namespace Sys2Proof.Machine

/-- A byte written reads back, and every other offset holds what it held. -/
theorem Memory.get?_set (m : Memory) (a a' : Nat) (b : Byte) :
    (m.set a b).get? a' = if a' = a then some b else m.get? a' := by
  induction m with
  | nil => simp [Memory.set, Memory.get?]
  | cons d m ih =>
    obtain ⟨a₁, b₁⟩ := d
    unfold Memory.set
    split
    · simp only [Memory.get?]
    · split
      · rename_i heq
        subst heq
        simp only [Memory.get?]
        split <;> rfl
      · simp only [Memory.get?, ih]
        split
        · rename_i h1
          subst h1
          rw [if_neg (by omega)]
        · rfl

/-- Consecutive bytes read back, and every offset outside them holds what it held. -/
theorem Memory.get?_setBytes (m : Memory) (a a' : Nat) (bs : List Byte) :
    (m.setBytes a bs).get? a' = if a ≤ a' ∧ a' < a + bs.length then some (bs.getD (a' - a) 0) else m.get? a' := by
  induction bs generalizing m a with
  | nil => simp [Memory.setBytes]
  | cons b bs ih =>
    simp only [Memory.setBytes, ih, List.length_cons, Memory.get?_set]
    rcases Nat.lt_trichotomy a' a with h | rfl | h
    · rw [if_neg (by omega), if_neg (by omega), if_neg (by omega)]
    · simp
    · by_cases h2 : a' < a + 1 + bs.length
      · rw [if_pos ⟨by omega, h2⟩, if_pos ⟨by omega, by omega⟩]
        obtain ⟨d, rfl⟩ : ∃ d, a' = a + 1 + d := ⟨a' - (a + 1), by omega⟩
        rw [show a + 1 + d - (a + 1) = d by omega, show a + 1 + d - a = d + 1 by omega]
        simp
      · rw [if_neg (by omega), if_neg (by omega), if_neg (by omega)]

/-- Whatever is listed after writing one byte was listed before, or is that byte. -/
theorem Memory.mem_set {m : Memory} {a : Nat} {b : Byte} {c : Host.Cell} (h : c ∈ m.set a b) : c ∈ m ∨ c = (a, b) := by
  induction m with
  | nil => simpa [Memory.set] using h
  | cons d m ih =>
    obtain ⟨a', b'⟩ := d
    unfold Memory.set at h
    split at h
    · simp only [List.mem_cons] at h ⊢; tauto
    · split at h
      · simp only [List.mem_cons] at h ⊢; tauto
      · simp only [List.mem_cons] at h ⊢
        rcases h with h | h
        · exact .inl (.inl h)
        · rcases ih h with h | h
          · exact .inl (.inr h)
          · exact .inr h

/-- Writing one byte keeps the canonical form. -/
theorem Memory.wf_set {m : Memory} (h : m.wf) (a : Nat) (b : Byte) : (m.set a b).wf := by
  induction m with
  | nil => simp [Memory.set]
  | cons d m ih =>
    obtain ⟨a', b'⟩ := d
    have hm := List.pairwise_cons.1 h
    unfold Memory.set
    split
    · rename_i hlt
      refine List.pairwise_cons.2 ⟨fun c hc => ?_, h⟩
      rcases List.mem_cons.1 hc with rfl | hc
      · exact hlt
      · exact Nat.lt_trans hlt (hm.1 c hc)
    · split
      · rename_i heq
        subst heq
        exact List.pairwise_cons.2 ⟨hm.1, hm.2⟩
      · refine List.pairwise_cons.2 ⟨fun c hc => ?_, ih hm.2⟩
        rcases Memory.mem_set hc with hc | rfl
        · exact hm.1 c hc
        · simp only; omega

/-- Writing consecutive bytes keeps the canonical form. -/
theorem Memory.wf_setBytes {m : Memory} (h : m.wf) (a : Nat) (bs : List Byte) : (m.setBytes a bs).wf := by
  induction bs generalizing m a with
  | nil => exact h
  | cons b bs ih => exact ih (Memory.wf_set h a b) (a + 1)

/-- Whatever is listed after writing consecutive bytes was listed before, or stands in the written range. -/
theorem Memory.mem_setBytes {m : Memory} {a : Nat} {bs : List Byte} {c : Host.Cell} (h : c ∈ m.setBytes a bs) :
    c ∈ m ∨ (a ≤ c.1 ∧ c.1 < a + bs.length) := by
  induction bs generalizing m a with
  | nil => exact .inl h
  | cons b bs ih =>
    rcases ih h with h | h
    · rcases Memory.mem_set h with h | rfl
      · exact .inl h
      · exact .inr (by simp)
    · exact .inr (by simp only [List.length_cons]; omega)

/-- Every store write keeps the canonical form. -/
theorem State.setStoreByte_wf {s : State} (h : s.mem.wf) (S : Store) (i : Nat) (b : Byte) :
    (s.setStoreByte S i b).mem.wf := by
  cases S <;> first | exact h | exact Memory.wf_set h _ _

/-- The engine's write of OUT keeps the canonical form. -/
theorem State.writeOut_wf {s : State} (h : s.mem.wf) (y : List Byte) : (s.writeOut y).mem.wf :=
  Memory.wf_setBytes h _ _

/-- The reset state's memory has the canonical form. -/
theorem State.reset_mem_wf : State.reset.mem.wf := List.Pairwise.nil

end Sys2Proof.Machine
end

