-- ==== Sys2Proof/Laws/State.lean ====
section
/-! SUPPORT. One lemma per field of State for each named update of the state, so that no proof unfolds a record
update. -/

namespace Sys2Proof.Machine

/-! ### `State.clearResult` -/

@[simp] theorem State.clearResult_latch (s : State) : (s.clearResult).latch = s.latch := rfl
@[simp] theorem State.clearResult_busy (s : State) : (s.clearResult).busy = s.busy := rfl
@[simp] theorem State.clearResult_done (s : State) : (s.clearResult).done = false := rfl
@[simp] theorem State.clearResult_err (s : State) : (s.clearResult).err = false := rfl
@[simp] theorem State.clearResult_wob (s : State) : (s.clearResult).wob = s.wob := rfl
@[simp] theorem State.clearResult_errcode (s : State) : (s.clearResult).errcode = 0 := rfl
@[simp] theorem State.clearResult_errinfo (s : State) : (s.clearResult).errinfo = 0 := rfl
@[simp] theorem State.clearResult_keyLen (s : State) : (s.clearResult).keyLen = s.keyLen := rfl
@[simp] theorem State.clearResult_ivLen (s : State) : (s.clearResult).ivLen = s.ivLen := rfl
@[simp] theorem State.clearResult_dataLen (s : State) : (s.clearResult).dataLen = s.dataLen := rfl
@[simp] theorem State.clearResult_aadLen (s : State) : (s.clearResult).aadLen = s.aadLen := rfl
@[simp] theorem State.clearResult_outLen (s : State) : (s.clearResult).outLen = s.outLen := rfl
@[simp] theorem State.clearResult_key (s : State) : (s.clearResult).key = s.key := rfl
@[simp] theorem State.clearResult_iv (s : State) : (s.clearResult).iv = s.iv := rfl
@[simp] theorem State.clearResult_mem (s : State) : (s.clearResult).mem = s.mem := rfl
@[simp] theorem State.clearResult_host (s : State) : (s.clearResult).host = s.host := rfl
@[simp] theorem State.clearResult_replies (s : State) : (s.clearResult).replies = s.replies := rfl
@[simp] theorem State.clearResult_lag (s : State) : (s.clearResult).lag = s.lag := rfl
@[simp] theorem State.clearResult_accepted (s : State) : (s.clearResult).accepted = s.accepted := rfl
@[simp] theorem State.clearResult_epoch (s : State) : (s.clearResult).epoch = s.epoch := rfl

/-! ### `State.acknowledge` -/

@[simp] theorem State.acknowledge_latch (s : State) : (s.acknowledge).latch = s.latch := rfl
@[simp] theorem State.acknowledge_busy (s : State) : (s.acknowledge).busy = s.busy := rfl
@[simp] theorem State.acknowledge_done (s : State) : (s.acknowledge).done = false := rfl
@[simp] theorem State.acknowledge_err (s : State) : (s.acknowledge).err = false := rfl
@[simp] theorem State.acknowledge_wob (s : State) : (s.acknowledge).wob = s.wob := rfl
@[simp] theorem State.acknowledge_errcode (s : State) : (s.acknowledge).errcode = 0 := rfl
@[simp] theorem State.acknowledge_errinfo (s : State) : (s.acknowledge).errinfo = 0 := rfl
@[simp] theorem State.acknowledge_keyLen (s : State) : (s.acknowledge).keyLen = s.keyLen := rfl
@[simp] theorem State.acknowledge_ivLen (s : State) : (s.acknowledge).ivLen = s.ivLen := rfl
@[simp] theorem State.acknowledge_dataLen (s : State) : (s.acknowledge).dataLen = s.dataLen := rfl
@[simp] theorem State.acknowledge_aadLen (s : State) : (s.acknowledge).aadLen = s.aadLen := rfl
@[simp] theorem State.acknowledge_outLen (s : State) : (s.acknowledge).outLen = s.outLen := rfl
@[simp] theorem State.acknowledge_key (s : State) : (s.acknowledge).key = s.key := rfl
@[simp] theorem State.acknowledge_iv (s : State) : (s.acknowledge).iv = s.iv := rfl
@[simp] theorem State.acknowledge_mem (s : State) : (s.acknowledge).mem = s.mem := rfl
@[simp] theorem State.acknowledge_host (s : State) : (s.acknowledge).host = s.host := rfl
@[simp] theorem State.acknowledge_replies (s : State) : (s.acknowledge).replies = s.replies := rfl
@[simp] theorem State.acknowledge_lag (s : State) : (s.acknowledge).lag = s.lag := rfl
@[simp] theorem State.acknowledge_accepted (s : State) : (s.acknowledge).accepted = s.accepted := rfl
@[simp] theorem State.acknowledge_epoch (s : State) : (s.acknowledge).epoch = s.epoch := rfl

/-! ### `State.setSuccess` -/

@[simp] theorem State.setSuccess_latch (s : State) : (s.setSuccess).latch = s.latch := rfl
@[simp] theorem State.setSuccess_busy (s : State) : (s.setSuccess).busy = false := rfl
@[simp] theorem State.setSuccess_done (s : State) : (s.setSuccess).done = true := rfl
@[simp] theorem State.setSuccess_err (s : State) : (s.setSuccess).err = false := rfl
@[simp] theorem State.setSuccess_wob (s : State) : (s.setSuccess).wob = s.wob := rfl
@[simp] theorem State.setSuccess_errcode (s : State) : (s.setSuccess).errcode = 0 := rfl
@[simp] theorem State.setSuccess_errinfo (s : State) : (s.setSuccess).errinfo = 0 := rfl
@[simp] theorem State.setSuccess_keyLen (s : State) : (s.setSuccess).keyLen = s.keyLen := rfl
@[simp] theorem State.setSuccess_ivLen (s : State) : (s.setSuccess).ivLen = s.ivLen := rfl
@[simp] theorem State.setSuccess_dataLen (s : State) : (s.setSuccess).dataLen = s.dataLen := rfl
@[simp] theorem State.setSuccess_aadLen (s : State) : (s.setSuccess).aadLen = s.aadLen := rfl
@[simp] theorem State.setSuccess_outLen (s : State) : (s.setSuccess).outLen = s.outLen := rfl
@[simp] theorem State.setSuccess_key (s : State) : (s.setSuccess).key = s.key := rfl
@[simp] theorem State.setSuccess_iv (s : State) : (s.setSuccess).iv = s.iv := rfl
@[simp] theorem State.setSuccess_mem (s : State) : (s.setSuccess).mem = s.mem := rfl
@[simp] theorem State.setSuccess_host (s : State) : (s.setSuccess).host = s.host := rfl
@[simp] theorem State.setSuccess_replies (s : State) : (s.setSuccess).replies = s.replies := rfl
@[simp] theorem State.setSuccess_lag (s : State) : (s.setSuccess).lag = s.lag := rfl
@[simp] theorem State.setSuccess_accepted (s : State) : (s.setSuccess).accepted = s.accepted := rfl
@[simp] theorem State.setSuccess_epoch (s : State) : (s.setSuccess).epoch = s.epoch := rfl

/-! ### `State.setError` -/

@[simp] theorem State.setError_latch (s : State) (e : CmdError) : (s.setError e).latch = s.latch := rfl
@[simp] theorem State.setError_busy (s : State) (e : CmdError) : (s.setError e).busy = false := rfl
@[simp] theorem State.setError_done (s : State) (e : CmdError) : (s.setError e).done = true := rfl
@[simp] theorem State.setError_err (s : State) (e : CmdError) : (s.setError e).err = true := rfl
@[simp] theorem State.setError_wob (s : State) (e : CmdError) : (s.setError e).wob = s.wob := rfl
@[simp] theorem State.setError_errcode (s : State) (e : CmdError) : (s.setError e).errcode = e.code := rfl
@[simp] theorem State.setError_errinfo (s : State) (e : CmdError) : (s.setError e).errinfo = e.info := rfl
@[simp] theorem State.setError_keyLen (s : State) (e : CmdError) : (s.setError e).keyLen = s.keyLen := rfl
@[simp] theorem State.setError_ivLen (s : State) (e : CmdError) : (s.setError e).ivLen = s.ivLen := rfl
@[simp] theorem State.setError_dataLen (s : State) (e : CmdError) : (s.setError e).dataLen = s.dataLen := rfl
@[simp] theorem State.setError_aadLen (s : State) (e : CmdError) : (s.setError e).aadLen = s.aadLen := rfl
@[simp] theorem State.setError_outLen (s : State) (e : CmdError) : (s.setError e).outLen = s.outLen := rfl
@[simp] theorem State.setError_key (s : State) (e : CmdError) : (s.setError e).key = s.key := rfl
@[simp] theorem State.setError_iv (s : State) (e : CmdError) : (s.setError e).iv = s.iv := rfl
@[simp] theorem State.setError_mem (s : State) (e : CmdError) : (s.setError e).mem = s.mem := rfl
@[simp] theorem State.setError_host (s : State) (e : CmdError) : (s.setError e).host = s.host := rfl
@[simp] theorem State.setError_replies (s : State) (e : CmdError) : (s.setError e).replies = s.replies := rfl
@[simp] theorem State.setError_lag (s : State) (e : CmdError) : (s.setError e).lag = s.lag := rfl
@[simp] theorem State.setError_accepted (s : State) (e : CmdError) : (s.setError e).accepted = s.accepted := rfl
@[simp] theorem State.setError_epoch (s : State) (e : CmdError) : (s.setError e).epoch = s.epoch := rfl

/-! ### `State.writeOut` -/

@[simp] theorem State.writeOut_latch (s : State) (y : List Byte) : (s.writeOut y).latch = s.latch := rfl
@[simp] theorem State.writeOut_busy (s : State) (y : List Byte) : (s.writeOut y).busy = s.busy := rfl
@[simp] theorem State.writeOut_done (s : State) (y : List Byte) : (s.writeOut y).done = s.done := rfl
@[simp] theorem State.writeOut_err (s : State) (y : List Byte) : (s.writeOut y).err = s.err := rfl
@[simp] theorem State.writeOut_wob (s : State) (y : List Byte) : (s.writeOut y).wob = s.wob := rfl
@[simp] theorem State.writeOut_errcode (s : State) (y : List Byte) : (s.writeOut y).errcode = s.errcode := rfl
@[simp] theorem State.writeOut_errinfo (s : State) (y : List Byte) : (s.writeOut y).errinfo = s.errinfo := rfl
@[simp] theorem State.writeOut_keyLen (s : State) (y : List Byte) : (s.writeOut y).keyLen = s.keyLen := rfl
@[simp] theorem State.writeOut_ivLen (s : State) (y : List Byte) : (s.writeOut y).ivLen = s.ivLen := rfl
@[simp] theorem State.writeOut_dataLen (s : State) (y : List Byte) : (s.writeOut y).dataLen = s.dataLen := rfl
@[simp] theorem State.writeOut_aadLen (s : State) (y : List Byte) : (s.writeOut y).aadLen = s.aadLen := rfl
@[simp] theorem State.writeOut_outLen (s : State) (y : List Byte) : (s.writeOut y).outLen = s.outLen := rfl
@[simp] theorem State.writeOut_key (s : State) (y : List Byte) : (s.writeOut y).key = s.key := rfl
@[simp] theorem State.writeOut_iv (s : State) (y : List Byte) : (s.writeOut y).iv = s.iv := rfl
@[simp] theorem State.writeOut_mem (s : State) (y : List Byte) : (s.writeOut y).mem = s.mem.setBytes Store.out.base y := rfl
@[simp] theorem State.writeOut_host (s : State) (y : List Byte) : (s.writeOut y).host = s.host := rfl
@[simp] theorem State.writeOut_replies (s : State) (y : List Byte) : (s.writeOut y).replies = s.replies := rfl
@[simp] theorem State.writeOut_lag (s : State) (y : List Byte) : (s.writeOut y).lag = s.lag := rfl
@[simp] theorem State.writeOut_accepted (s : State) (y : List Byte) : (s.writeOut y).accepted = s.accepted := rfl
@[simp] theorem State.writeOut_epoch (s : State) (y : List Byte) : (s.writeOut y).epoch = s.epoch := rfl

/-! ### `State.commitSuccess` -/

@[simp] theorem State.commitSuccess_latch (s : State) (y : List Byte) : (s.commitSuccess y).latch = s.latch := rfl
@[simp] theorem State.commitSuccess_busy (s : State) (y : List Byte) : (s.commitSuccess y).busy = false := rfl
@[simp] theorem State.commitSuccess_done (s : State) (y : List Byte) : (s.commitSuccess y).done = true := rfl
@[simp] theorem State.commitSuccess_err (s : State) (y : List Byte) : (s.commitSuccess y).err = false := rfl
@[simp] theorem State.commitSuccess_wob (s : State) (y : List Byte) : (s.commitSuccess y).wob = s.wob := rfl
@[simp] theorem State.commitSuccess_errcode (s : State) (y : List Byte) : (s.commitSuccess y).errcode = 0 := rfl
@[simp] theorem State.commitSuccess_errinfo (s : State) (y : List Byte) : (s.commitSuccess y).errinfo = 0 := rfl
@[simp] theorem State.commitSuccess_keyLen (s : State) (y : List Byte) : (s.commitSuccess y).keyLen = s.keyLen := rfl
@[simp] theorem State.commitSuccess_ivLen (s : State) (y : List Byte) : (s.commitSuccess y).ivLen = s.ivLen := rfl
@[simp] theorem State.commitSuccess_dataLen (s : State) (y : List Byte) : (s.commitSuccess y).dataLen = s.dataLen := rfl
@[simp] theorem State.commitSuccess_aadLen (s : State) (y : List Byte) : (s.commitSuccess y).aadLen = s.aadLen := rfl
@[simp] theorem State.commitSuccess_outLen (s : State) (y : List Byte) : (s.commitSuccess y).outLen = BitVec.ofNat 32 y.length := rfl
@[simp] theorem State.commitSuccess_key (s : State) (y : List Byte) : (s.commitSuccess y).key = s.key := rfl
@[simp] theorem State.commitSuccess_iv (s : State) (y : List Byte) : (s.commitSuccess y).iv = s.iv := rfl
@[simp] theorem State.commitSuccess_mem (s : State) (y : List Byte) : (s.commitSuccess y).mem = s.mem.setBytes Store.out.base y := rfl
@[simp] theorem State.commitSuccess_host (s : State) (y : List Byte) : (s.commitSuccess y).host = s.host := rfl
@[simp] theorem State.commitSuccess_replies (s : State) (y : List Byte) : (s.commitSuccess y).replies = s.replies := rfl
@[simp] theorem State.commitSuccess_lag (s : State) (y : List Byte) : (s.commitSuccess y).lag = s.lag := rfl
@[simp] theorem State.commitSuccess_accepted (s : State) (y : List Byte) : (s.commitSuccess y).accepted = s.accepted := rfl
@[simp] theorem State.commitSuccess_epoch (s : State) (y : List Byte) : (s.commitSuccess y).epoch = s.epoch := rfl

/-! ### `State.commitError` -/

@[simp] theorem State.commitError_latch (s : State) (e : CmdError) : (s.commitError e).latch = s.latch := rfl
@[simp] theorem State.commitError_busy (s : State) (e : CmdError) : (s.commitError e).busy = false := rfl
@[simp] theorem State.commitError_done (s : State) (e : CmdError) : (s.commitError e).done = true := rfl
@[simp] theorem State.commitError_err (s : State) (e : CmdError) : (s.commitError e).err = true := rfl
@[simp] theorem State.commitError_wob (s : State) (e : CmdError) : (s.commitError e).wob = s.wob := rfl
@[simp] theorem State.commitError_errcode (s : State) (e : CmdError) : (s.commitError e).errcode = e.code := rfl
@[simp] theorem State.commitError_errinfo (s : State) (e : CmdError) : (s.commitError e).errinfo = e.info := rfl
@[simp] theorem State.commitError_keyLen (s : State) (e : CmdError) : (s.commitError e).keyLen = s.keyLen := rfl
@[simp] theorem State.commitError_ivLen (s : State) (e : CmdError) : (s.commitError e).ivLen = s.ivLen := rfl
@[simp] theorem State.commitError_dataLen (s : State) (e : CmdError) : (s.commitError e).dataLen = s.dataLen := rfl
@[simp] theorem State.commitError_aadLen (s : State) (e : CmdError) : (s.commitError e).aadLen = s.aadLen := rfl
@[simp] theorem State.commitError_outLen (s : State) (e : CmdError) : (s.commitError e).outLen = 0 := rfl
@[simp] theorem State.commitError_key (s : State) (e : CmdError) : (s.commitError e).key = s.key := rfl
@[simp] theorem State.commitError_iv (s : State) (e : CmdError) : (s.commitError e).iv = s.iv := rfl
@[simp] theorem State.commitError_mem (s : State) (e : CmdError) : (s.commitError e).mem = s.mem := rfl
@[simp] theorem State.commitError_host (s : State) (e : CmdError) : (s.commitError e).host = s.host := rfl
@[simp] theorem State.commitError_replies (s : State) (e : CmdError) : (s.commitError e).replies = s.replies := rfl
@[simp] theorem State.commitError_lag (s : State) (e : CmdError) : (s.commitError e).lag = s.lag := rfl
@[simp] theorem State.commitError_accepted (s : State) (e : CmdError) : (s.commitError e).accepted = s.accepted := rfl
@[simp] theorem State.commitError_epoch (s : State) (e : CmdError) : (s.commitError e).epoch = s.epoch := rfl

/-! ### `State.accept` -/

@[simp] theorem State.accept_latch (s : State) (w : Word) : (s.accept w).latch = w := rfl
@[simp] theorem State.accept_busy (s : State) (w : Word) : (s.accept w).busy = true := rfl
@[simp] theorem State.accept_done (s : State) (w : Word) : (s.accept w).done = false := rfl
@[simp] theorem State.accept_err (s : State) (w : Word) : (s.accept w).err = false := rfl
@[simp] theorem State.accept_wob (s : State) (w : Word) : (s.accept w).wob = s.wob := rfl
@[simp] theorem State.accept_errcode (s : State) (w : Word) : (s.accept w).errcode = 0 := rfl
@[simp] theorem State.accept_errinfo (s : State) (w : Word) : (s.accept w).errinfo = 0 := rfl
@[simp] theorem State.accept_keyLen (s : State) (w : Word) : (s.accept w).keyLen = s.keyLen := rfl
@[simp] theorem State.accept_ivLen (s : State) (w : Word) : (s.accept w).ivLen = s.ivLen := rfl
@[simp] theorem State.accept_dataLen (s : State) (w : Word) : (s.accept w).dataLen = s.dataLen := rfl
@[simp] theorem State.accept_aadLen (s : State) (w : Word) : (s.accept w).aadLen = s.aadLen := rfl
@[simp] theorem State.accept_outLen (s : State) (w : Word) : (s.accept w).outLen = 0 := rfl
@[simp] theorem State.accept_key (s : State) (w : Word) : (s.accept w).key = s.key := rfl
@[simp] theorem State.accept_iv (s : State) (w : Word) : (s.accept w).iv = s.iv := rfl
@[simp] theorem State.accept_mem (s : State) (w : Word) : (s.accept w).mem = s.mem := rfl
@[simp] theorem State.accept_host (s : State) (w : Word) : (s.accept w).host = s.host := rfl
@[simp] theorem State.accept_replies (s : State) (w : Word) : (s.accept w).replies = s.replies := rfl
@[simp] theorem State.accept_lag (s : State) (w : Word) : (s.accept w).lag = Config.lag s.accepted := rfl
@[simp] theorem State.accept_accepted (s : State) (w : Word) : (s.accept w).accepted = s.accepted + 1 := rfl
@[simp] theorem State.accept_epoch (s : State) (w : Word) : (s.accept w).epoch = s.epoch := rfl

/-! ### `State.dropWrite` -/

@[simp] theorem State.dropWrite_latch (s : State) : (s.dropWrite).latch = s.latch := rfl
@[simp] theorem State.dropWrite_busy (s : State) : (s.dropWrite).busy = s.busy := rfl
@[simp] theorem State.dropWrite_done (s : State) : (s.dropWrite).done = s.done := rfl
@[simp] theorem State.dropWrite_err (s : State) : (s.dropWrite).err = s.err := rfl
@[simp] theorem State.dropWrite_wob (s : State) : (s.dropWrite).wob = true := rfl
@[simp] theorem State.dropWrite_errcode (s : State) : (s.dropWrite).errcode = s.errcode := rfl
@[simp] theorem State.dropWrite_errinfo (s : State) : (s.dropWrite).errinfo = s.errinfo := rfl
@[simp] theorem State.dropWrite_keyLen (s : State) : (s.dropWrite).keyLen = s.keyLen := rfl
@[simp] theorem State.dropWrite_ivLen (s : State) : (s.dropWrite).ivLen = s.ivLen := rfl
@[simp] theorem State.dropWrite_dataLen (s : State) : (s.dropWrite).dataLen = s.dataLen := rfl
@[simp] theorem State.dropWrite_aadLen (s : State) : (s.dropWrite).aadLen = s.aadLen := rfl
@[simp] theorem State.dropWrite_outLen (s : State) : (s.dropWrite).outLen = s.outLen := rfl
@[simp] theorem State.dropWrite_key (s : State) : (s.dropWrite).key = s.key := rfl
@[simp] theorem State.dropWrite_iv (s : State) : (s.dropWrite).iv = s.iv := rfl
@[simp] theorem State.dropWrite_mem (s : State) : (s.dropWrite).mem = s.mem := rfl
@[simp] theorem State.dropWrite_host (s : State) : (s.dropWrite).host = s.host := rfl
@[simp] theorem State.dropWrite_replies (s : State) : (s.dropWrite).replies = s.replies := rfl
@[simp] theorem State.dropWrite_lag (s : State) : (s.dropWrite).lag = s.lag := rfl
@[simp] theorem State.dropWrite_accepted (s : State) : (s.dropWrite).accepted = s.accepted := rfl
@[simp] theorem State.dropWrite_epoch (s : State) : (s.dropWrite).epoch = s.epoch := rfl

/-! ### `State.takeMove` -/

@[simp] theorem State.takeMove_latch (s : State) (rest : List HostMove) : (s.takeMove rest).latch = s.latch := rfl
@[simp] theorem State.takeMove_busy (s : State) (rest : List HostMove) : (s.takeMove rest).busy = s.busy := rfl
@[simp] theorem State.takeMove_done (s : State) (rest : List HostMove) : (s.takeMove rest).done = s.done := rfl
@[simp] theorem State.takeMove_err (s : State) (rest : List HostMove) : (s.takeMove rest).err = s.err := rfl
@[simp] theorem State.takeMove_wob (s : State) (rest : List HostMove) : (s.takeMove rest).wob = s.wob := rfl
@[simp] theorem State.takeMove_errcode (s : State) (rest : List HostMove) : (s.takeMove rest).errcode = s.errcode := rfl
@[simp] theorem State.takeMove_errinfo (s : State) (rest : List HostMove) : (s.takeMove rest).errinfo = s.errinfo := rfl
@[simp] theorem State.takeMove_keyLen (s : State) (rest : List HostMove) : (s.takeMove rest).keyLen = s.keyLen := rfl
@[simp] theorem State.takeMove_ivLen (s : State) (rest : List HostMove) : (s.takeMove rest).ivLen = s.ivLen := rfl
@[simp] theorem State.takeMove_dataLen (s : State) (rest : List HostMove) : (s.takeMove rest).dataLen = s.dataLen := rfl
@[simp] theorem State.takeMove_aadLen (s : State) (rest : List HostMove) : (s.takeMove rest).aadLen = s.aadLen := rfl
@[simp] theorem State.takeMove_outLen (s : State) (rest : List HostMove) : (s.takeMove rest).outLen = s.outLen := rfl
@[simp] theorem State.takeMove_key (s : State) (rest : List HostMove) : (s.takeMove rest).key = s.key := rfl
@[simp] theorem State.takeMove_iv (s : State) (rest : List HostMove) : (s.takeMove rest).iv = s.iv := rfl
@[simp] theorem State.takeMove_mem (s : State) (rest : List HostMove) : (s.takeMove rest).mem = s.mem := rfl
@[simp] theorem State.takeMove_host (s : State) (rest : List HostMove) : (s.takeMove rest).host = rest := rfl
@[simp] theorem State.takeMove_replies (s : State) (rest : List HostMove) : (s.takeMove rest).replies = s.replies := rfl
@[simp] theorem State.takeMove_lag (s : State) (rest : List HostMove) : (s.takeMove rest).lag = s.lag - 1 := rfl
@[simp] theorem State.takeMove_accepted (s : State) (rest : List HostMove) : (s.takeMove rest).accepted = s.accepted := rfl
@[simp] theorem State.takeMove_epoch (s : State) (rest : List HostMove) : (s.takeMove rest).epoch = s.epoch := rfl

/-! ### `State.resetPulse` -/

@[simp] theorem State.resetPulse_latch (s : State) : (s.resetPulse).latch = State.reset.latch := rfl
@[simp] theorem State.resetPulse_busy (s : State) : (s.resetPulse).busy = State.reset.busy := rfl
@[simp] theorem State.resetPulse_done (s : State) : (s.resetPulse).done = State.reset.done := rfl
@[simp] theorem State.resetPulse_err (s : State) : (s.resetPulse).err = State.reset.err := rfl
@[simp] theorem State.resetPulse_wob (s : State) : (s.resetPulse).wob = State.reset.wob := rfl
@[simp] theorem State.resetPulse_errcode (s : State) : (s.resetPulse).errcode = State.reset.errcode := rfl
@[simp] theorem State.resetPulse_errinfo (s : State) : (s.resetPulse).errinfo = State.reset.errinfo := rfl
@[simp] theorem State.resetPulse_keyLen (s : State) : (s.resetPulse).keyLen = State.reset.keyLen := rfl
@[simp] theorem State.resetPulse_ivLen (s : State) : (s.resetPulse).ivLen = State.reset.ivLen := rfl
@[simp] theorem State.resetPulse_dataLen (s : State) : (s.resetPulse).dataLen = State.reset.dataLen := rfl
@[simp] theorem State.resetPulse_aadLen (s : State) : (s.resetPulse).aadLen = State.reset.aadLen := rfl
@[simp] theorem State.resetPulse_outLen (s : State) : (s.resetPulse).outLen = State.reset.outLen := rfl
@[simp] theorem State.resetPulse_key (s : State) : (s.resetPulse).key = State.reset.key := rfl
@[simp] theorem State.resetPulse_iv (s : State) : (s.resetPulse).iv = State.reset.iv := rfl
@[simp] theorem State.resetPulse_mem (s : State) : (s.resetPulse).mem = State.reset.mem := rfl
@[simp] theorem State.resetPulse_host (s : State) : (s.resetPulse).host = s.host := rfl
@[simp] theorem State.resetPulse_replies (s : State) : (s.resetPulse).replies = s.replies := rfl
@[simp] theorem State.resetPulse_lag (s : State) : (s.resetPulse).lag = State.reset.lag := rfl
@[simp] theorem State.resetPulse_accepted (s : State) : (s.resetPulse).accepted = s.accepted := rfl
@[simp] theorem State.resetPulse_epoch (s : State) : (s.resetPulse).epoch = s.epoch + 1 := rfl

/-! ### `State.setStoreByte` -/

@[simp] theorem State.setStoreByte_latch (s : State) (S : Store) (i : Nat) (b : Byte) : (s.setStoreByte S i b).latch = s.latch := by cases S <;> rfl
@[simp] theorem State.setStoreByte_busy (s : State) (S : Store) (i : Nat) (b : Byte) : (s.setStoreByte S i b).busy = s.busy := by cases S <;> rfl
@[simp] theorem State.setStoreByte_done (s : State) (S : Store) (i : Nat) (b : Byte) : (s.setStoreByte S i b).done = s.done := by cases S <;> rfl
@[simp] theorem State.setStoreByte_err (s : State) (S : Store) (i : Nat) (b : Byte) : (s.setStoreByte S i b).err = s.err := by cases S <;> rfl
@[simp] theorem State.setStoreByte_wob (s : State) (S : Store) (i : Nat) (b : Byte) : (s.setStoreByte S i b).wob = s.wob := by cases S <;> rfl
@[simp] theorem State.setStoreByte_errcode (s : State) (S : Store) (i : Nat) (b : Byte) : (s.setStoreByte S i b).errcode = s.errcode := by cases S <;> rfl
@[simp] theorem State.setStoreByte_errinfo (s : State) (S : Store) (i : Nat) (b : Byte) : (s.setStoreByte S i b).errinfo = s.errinfo := by cases S <;> rfl
@[simp] theorem State.setStoreByte_keyLen (s : State) (S : Store) (i : Nat) (b : Byte) : (s.setStoreByte S i b).keyLen = s.keyLen := by cases S <;> rfl
@[simp] theorem State.setStoreByte_ivLen (s : State) (S : Store) (i : Nat) (b : Byte) : (s.setStoreByte S i b).ivLen = s.ivLen := by cases S <;> rfl
@[simp] theorem State.setStoreByte_dataLen (s : State) (S : Store) (i : Nat) (b : Byte) : (s.setStoreByte S i b).dataLen = s.dataLen := by cases S <;> rfl
@[simp] theorem State.setStoreByte_aadLen (s : State) (S : Store) (i : Nat) (b : Byte) : (s.setStoreByte S i b).aadLen = s.aadLen := by cases S <;> rfl
@[simp] theorem State.setStoreByte_outLen (s : State) (S : Store) (i : Nat) (b : Byte) : (s.setStoreByte S i b).outLen = s.outLen := by cases S <;> rfl
@[simp] theorem State.setStoreByte_host (s : State) (S : Store) (i : Nat) (b : Byte) : (s.setStoreByte S i b).host = s.host := by cases S <;> rfl
@[simp] theorem State.setStoreByte_replies (s : State) (S : Store) (i : Nat) (b : Byte) : (s.setStoreByte S i b).replies = s.replies := by cases S <;> rfl
@[simp] theorem State.setStoreByte_lag (s : State) (S : Store) (i : Nat) (b : Byte) : (s.setStoreByte S i b).lag = s.lag := by cases S <;> rfl
@[simp] theorem State.setStoreByte_accepted (s : State) (S : Store) (i : Nat) (b : Byte) : (s.setStoreByte S i b).accepted = s.accepted := by cases S <;> rfl
@[simp] theorem State.setStoreByte_epoch (s : State) (S : Store) (i : Nat) (b : Byte) : (s.setStoreByte S i b).epoch = s.epoch := by cases S <;> rfl

/-! ### `State.reset` -/

@[simp] theorem State.reset_latch : State.reset.latch = 0 := rfl
@[simp] theorem State.reset_busy : State.reset.busy = false := rfl
@[simp] theorem State.reset_done : State.reset.done = false := rfl
@[simp] theorem State.reset_err : State.reset.err = false := rfl
@[simp] theorem State.reset_wob : State.reset.wob = false := rfl
@[simp] theorem State.reset_errcode : State.reset.errcode = 0 := rfl
@[simp] theorem State.reset_errinfo : State.reset.errinfo = 0 := rfl
@[simp] theorem State.reset_keyLen : State.reset.keyLen = 0 := rfl
@[simp] theorem State.reset_ivLen : State.reset.ivLen = 0 := rfl
@[simp] theorem State.reset_dataLen : State.reset.dataLen = 0 := rfl
@[simp] theorem State.reset_aadLen : State.reset.aadLen = 0 := rfl
@[simp] theorem State.reset_outLen : State.reset.outLen = 0 := rfl
@[simp] theorem State.reset_key : State.reset.key = Vector.replicate 16 0 := rfl
@[simp] theorem State.reset_iv : State.reset.iv = Vector.replicate 16 0 := rfl
@[simp] theorem State.reset_mem : State.reset.mem = [] := rfl
@[simp] theorem State.reset_host : State.reset.host = [] := rfl
@[simp] theorem State.reset_replies : State.reset.replies = [] := rfl
@[simp] theorem State.reset_lag : State.reset.lag = 0 := rfl
@[simp] theorem State.reset_accepted : State.reset.accepted = 0 := rfl
@[simp] theorem State.reset_epoch : State.reset.epoch = 0 := rfl

end Sys2Proof.Machine
end

