-- ==== Sys2Proof/Laws/Ops.lean ====
section
/-! SUPPORT. What each shared operation can do, said once: the commits of a completion step, store bytes after a write,
the store that an offset reaches, bus writes and host moves. -/

namespace Sys2Proof.Machine

/-! ### Store bytes -/

theorem Store.size_le (S : Store) : S.size ≤ 0xFFFF0 + 16 := by
  have := Config.inMax_le
  have := Config.aadMax_le
  cases S <;> simp only [Store.size, Config.outCap_eq] <;> omega

/-- The byte of IN, AAD or OUT at an offset after a run of bytes was written there. -/
theorem State.ramByte_setBytes (s : State) (a a' : Nat) (bs : List Byte) :
    State.ramByte { s with mem := s.mem.setBytes a bs } a' =
      if a ≤ a' ∧ a' < a + bs.length then bs.getD (a' - a) 0 else s.ramByte a' := by
  simp only [State.ramByte, Memory.get?_setBytes]
  split <;> rfl

/-- The byte at an offset after one byte was written. -/
theorem State.ramByte_set (s : State) (a a' : Nat) (b : Byte) :
    State.ramByte { s with mem := s.mem.set a b } a' = if a' = a then b else s.ramByte a' := by
  simp only [State.ramByte, Memory.get?_set]
  split <;> rfl

/-- Reading a byte looks at memory and the epoch only. -/
theorem State.ramByte_congr {s t : State} (hm : t.mem = s.mem) (he : t.epoch = s.epoch) (a : Nat) :
    t.ramByte a = s.ramByte a := by
  simp only [State.ramByte, hm, he]

/-- The bytes of a store follow from KEY, IV and the bytes of memory. -/
theorem State.storeByte_congr {s t : State} (hk : t.key = s.key) (hi : t.iv = s.iv)
    (hm : ∀ a, t.ramByte a = s.ramByte a) (S : Store) (i : Nat) : t.storeByte S i = s.storeByte S i := by
  cases S <;> simp only [State.storeByte, hk, hi, hm]

/-! ### The store that an offset reaches -/

/-- An offset reaches a byte of a store exactly where the window of R52 places it. -/
theorem locate_some {o i : Nat} {S : Store} (h : locate o = some (S, i)) : o = S.base + i ∧ i < S.size := by
  unfold locate at h
  repeat' split at h
  all_goals first
    | (simp only [Option.some.injEq, Prod.mk.injEq] at h
       obtain ⟨rfl, rfl⟩ := h
       rename_i hm
       simp only [Store.maps, Bool.and_eq_true, decide_eq_true_eq] at hm
       omega)
    | (exact absurd h (by simp))

/-- Every mapped byte of a store is reached at its window offset. -/
theorem locate_base_add (S : Store) (i : Nat) (h : i < S.size) : locate (S.base + i) = some (S, i) := by
  have h1 := Config.inMax_le
  have h2 := Config.aadMax_le
  have h3 := Config.outCap_eq
  have b1 : Store.key.base = 0x40 := rfl
  have b2 : Store.iv.base = 0x50 := rfl
  have b3 : Store.inp.base = 0x100000 := rfl
  have b4 : Store.aad.base = 0x200000 := rfl
  have b5 : Store.out.base = 0x300000 := rfl
  have s1 : Store.key.size = 16 := rfl
  have s2 : Store.iv.size = 16 := rfl
  have s3 : Store.inp.size = Config.inMax := rfl
  have s4 : Store.aad.size = Config.aadMax := rfl
  have s5 : Store.out.size = Config.outCap := rfl
  cases S <;> unfold locate <;> simp only [Store.maps, Bool.and_eq_true, decide_eq_true_eq] <;> repeat' split
  all_goals first
    | (exfalso; omega)
    | (rw [Nat.add_sub_cancel_left])

/-- An offset outside every window is unmapped. -/
theorem locate_none {o : Nat} (h : ∀ S : Store, ¬ (S.base ≤ o ∧ o < S.base + S.size)) : locate o = none := by
  rcases e : locate o with _ | ⟨S, i⟩
  · rfl
  · obtain ⟨rfl, hi⟩ := locate_some e
    exact absurd ⟨Nat.le_add_right _ _, by omega⟩ (h S)

/-- The register found at an offset has that offset. -/
theorem regAt_some {o : Nat} {r : Reg} (h : regAt o = some r) : o = r.offset :=
  (beq_iff_eq.1 (List.find?_some (p := fun r : Reg => r.offset == o) h)).symm

/-- Every register is found at its offset. -/
theorem regAt_offset (r : Reg) : regAt r.offset = some r := by cases r <;> rfl

theorem Reg.offset_lt (r : Reg) : r.offset < 0x24 := by cases r <;> decide

/-- A register stands at no offset from 0x24 on. -/
theorem regAt_none {o : Nat} (h : 0x24 ≤ o) : regAt o = none := by
  rcases e : regAt o with _ | r
  · rfl
  · have := regAt_some e
    have := r.offset_lt
    omega

/-! ### The commits of a completion step -/

/-- The bytes of memory after a success commit: the output from the base of OUT on. -/
theorem State.ramByte_commitSuccess (s : State) (y : List Byte) (a : Nat) :
    (s.commitSuccess y).ramByte a =
      if Store.out.base ≤ a ∧ a < Store.out.base + y.length then y.getD (a - Store.out.base) 0 else s.ramByte a :=
  State.ramByte_setBytes s Store.out.base a y

/-- 60_exceptions.md R181: all that a success commit does. -/
theorem State.commitSuccess_succeeded (s : State) (y : List Byte) (h : y.length ≤ Config.outCap) :
    Succeeded s (s.commitSuccess y) y where
  frame := by constructor <;> simp
  busy := by simp
  done := by simp
  err := by simp
  errcode := by simp
  errinfo := by simp
  outLen := by
    have := Config.inMax_le
    have := Config.outCap_eq
    simp only [State.commitSuccess_outLen, BitVec.toNat_ofNat]
    exact Nat.mod_eq_of_lt (by omega)
  out := fun i hi => by
    simp only [State.storeByte]
    rw [State.ramByte_commitSuccess, if_pos ⟨by omega, by omega⟩, Nat.add_sub_cancel_left]
  rest := fun a ha => by
    rw [State.ramByte_commitSuccess, if_neg ha]

/-- 60_exceptions.md R182: all that an error commit does. -/
theorem State.commitError_failed (s : State) (e : CmdError) : Failed s (s.commitError e) e.code e.info where
  frame := by constructor <;> simp
  busy := by simp
  done := by simp
  err := by simp
  errcode := by simp
  errinfo := by simp
  outLen := by simp
  mem := fun a => State.ramByte_congr (State.commitError_mem s e) (State.commitError_epoch s e) a

/-- 60_exceptions.md R170 to R175: every error has a legal code and subcode. -/
theorem CmdError.legal (e : CmdError) : legalError e.code e.info := by
  rcases e with _ | c | _ | _ | w
  · decide
  · cases c <;> decide
  · decide
  · decide
  · cases w <;> decide

/-- 60_exceptions.md R180: every command commits the outcome of its `Run_OP`. -/
def runOf : Instr → State → RunOutcome
  | .pad => runPad
  | .unpad => runUnpad
  | .xor => runXor
  | .cbcEnc => runCbcEnc
  | .cbcDec => runCbcDec
  | .ctrEnc => runCtrEnc
  | .ctrDec => runCtrDec
  | .ccmEnc => runCcmEnc
  | .ccmDec => runCcmDec

theorem exec_eq_commit (c : Instr) (s : State) : exec c s = .next (s.commit (runOf c s)) := by cases c <;> rfl

/-! ### Bus writes and host moves -/

/-- 20_memory.md R54 (d): a lane write is ignored, or it writes one byte of a store the host may write. -/
theorem State.laneWrite_cases (s : State) (o : Nat) (b : Byte) :
    s.laneWrite o b = s ∨
      ∃ S i, S.hostWrites = true ∧ o = S.base + i ∧ i < S.size ∧ s.laneWrite o b = s.setStoreByte S i b := by
  unfold State.laneWrite
  rcases e : locate o with _ | ⟨S, i⟩
  · exact .inl rfl
  · obtain ⟨rfl, hi⟩ := locate_some e
    by_cases hw : S.hostWrites = true
    · exact .inr ⟨S, i, hw, rfl, hi, by simp only [hw, if_true]⟩
    · exact .inl (by simp only [hw]; rfl)

/-- 20_memory.md R54, R60 to R63: all that a bus write can do. -/
theorem State.busWrite_cases (s : State) (off : Offset) (w : Word) :
    s.busWrite off w = s ∨
    (s.busy = true ∧ s.busWrite off w = s.dropWrite) ∨
    (s.busy = false ∧ alignedOffset off = Reg.cmd.offset ∧ s.busWrite off w = s.accept w) ∨
    (alignedOffset off = Reg.status.offset ∧ s.busWrite off w = s.statusWrite w) ∨
    (s.busy = false ∧ s.busWrite off w = { s with keyLen := w.setWidth 8 }) ∨
    (s.busy = false ∧ s.busWrite off w = { s with ivLen := w.setWidth 8 }) ∨
    (s.busy = false ∧ s.busWrite off w = { s with dataLen := w }) ∨
    (s.busy = false ∧ s.busWrite off w = { s with aadLen := w.setWidth 16 }) ∨
    (s.busy = false ∧ s.busWrite off w = s.lanesWrite (alignedOffset off) w) := by
  unfold State.busWrite
  rcases e : regAt (alignedOffset off) with _ | r
  · simp only [State.unlessBusy]
    by_cases hl : anyLaneWritable (alignedOffset off) = true <;> rcases hb : s.busy <;> simp [hl]
  · have ho := regAt_some e
    rcases hb : s.busy <;> cases r <;> simp [State.writeReg, State.unlessBusy, hb, ho]

end Sys2Proof.Machine
end

