-- ==== Sys2Proof/Laws/Step.lean ====
section
/-! SUPPORT. What one step can do, said once. -/

namespace Sys2Proof.Machine

/-- When the next step is the engine's. -/
theorem State.engineTurn_iff (s : State) :
    s.engineTurn = true ↔ s.busy = true ∧ (s.lag = 0 ∨ s.host = []) := by
  simp [State.engineTurn]

/-- When the next step is the host's. -/
theorem State.engineTurn_eq_false {s : State} {m : HostMove} {rest : List HostMove} (h : s.busy = false ∨ s.lag ≠ 0)
    (hh : s.host = m :: rest) : s.engineTurn = false := by
  rw [Bool.eq_false_iff, ne_eq, State.engineTurn_iff, hh]
  rcases h with h | h <;> simp [h]

/-- A completion step commits an outcome: the command's, or ILLEGAL_CMD. -/
theorem complete_eq_commit (s : State) :
    (∃ c, decode s.latch = .ok c ∧ complete s = .next (s.commit (runOf c s))) ∨
    (∃ why, decode s.latch = .error why ∧ complete s = .next (s.commitError (.illegalCmd why))) := by
  unfold complete
  rcases e : decode s.latch with why | c
  · exact .inr ⟨why, rfl, rfl⟩
  · exact .inl ⟨c, rfl, exec_eq_commit c s⟩

/-- 20_memory.md R58, R67; 60_exceptions.md R180: a step is the engine's completion, a host move, or nothing (IDLE with
no host move). -/
theorem step_cases {s t : State} (h : step s = .next t) :
    (s.engineTurn = true ∧ ∃ c, decode s.latch = .ok c ∧ t = s.commit (runOf c s)) ∨
    (s.engineTurn = true ∧ ∃ why, decode s.latch = .error why ∧ t = s.commitError (.illegalCmd why)) ∨
    (s.engineTurn = false ∧ s.host = [] ∧ t = s) ∨
    (s.engineTurn = false ∧ ∃ m rest, s.host = m :: rest ∧ t = s.hostMove m rest) := by
  unfold step at h
  rcases e : s.engineTurn with _ | _
  · simp only [e] at h
    rcases hh : s.host with _ | ⟨m, rest⟩
    · rw [hh] at h; cases h
      exact .inr (.inr (.inl ⟨rfl, rfl, rfl⟩))
    · rw [hh] at h; cases h
      exact .inr (.inr (.inr ⟨rfl, m, rest, rfl, rfl⟩))
  · rw [if_pos e] at h
    rcases complete_eq_commit s with ⟨c, hd, hc⟩ | ⟨why, hd, hc⟩ <;> rw [hc] at h <;> cases h
    · exact .inl ⟨rfl, c, hd, rfl⟩
    · exact .inr (.inl ⟨rfl, why, hd, rfl⟩)

/-- A run goes through its first step. -/
theorem core_run_succ {s t : State} (k : Nat) (h : step s = .next t) :
    Sys2Proof.core.run (k + 1) s = Sys2Proof.core.run k t := by
  simp only [Host.Core.run]
  rw [show Sys2Proof.core.step s = .next t from h]

end Sys2Proof.Machine
end

