-- ==== Sys2Proof/Laws/Commands.lean ====
section
/-! SUPPORT. Each command's `Run_OP` once its checks pass, and that an `ok` outcome means that they passed. -/

namespace Sys2Proof.Machine

theorem State.keyLength_eq_iff (s : State) : s.keyLength = 16 ↔ s.keyLen = 16 := by
  rw [← BitVec.toNat_inj]; rfl

theorem State.ivLength_eq_iff (s : State) : s.ivLength = 16 ↔ s.ivLen = 16 := by
  rw [← BitVec.toNat_inj]; rfl

theorem State.dataLength_eq (s : State) : s.dataLength = s.dataLen.toNat := rfl

theorem State.aadLength_eq (s : State) : s.aadLength = s.aadLen.toNat := rfl

theorem State.ivLength_eq (s : State) : s.ivLength = s.ivLen.toNat := rfl

@[simp] theorem State.message_length (s : State) : s.message.length = s.dataLen.toNat := s.memRead_length _ _ _

@[simp] theorem State.assocData_length (s : State) : s.assocData.length = s.aadLen.toNat := s.memRead_length _ _ _

@[simp] theorem State.xorOperand_length (s : State) : s.xorOperand.length = s.dataLen.toNat := s.memRead_length _ _ _

@[simp] theorem State.nonce_length (s : State) : s.nonce.length = s.ivLen.toNat := s.memRead_length _ _ _

theorem State.message_getD (s : State) (i : Nat) (h : i < s.dataLen.toNat) :
    s.message.getD i 0 = s.storeByte .inp i := by
  have := s.memRead_getD .inp 0 s.dataLen.toNat i h
  rwa [Nat.zero_add] at this

theorem State.assocData_getD (s : State) (i : Nat) (h : i < s.aadLen.toNat) :
    s.assocData.getD i 0 = s.storeByte .aad i := by
  have := s.memRead_getD .aad 0 s.aadLen.toNat i h
  rwa [Nat.zero_add] at this

theorem State.xorOperand_getD (s : State) (i : Nat) (h : i < s.dataLen.toNat) :
    s.xorOperand.getD i 0 = s.storeByte .aad i := by
  have := s.memRead_getD .aad 0 s.dataLen.toNat i h
  rwa [Nat.zero_add] at this

theorem State.nonce_getD (s : State) (i : Nat) (h : i < s.ivLen.toNat) : s.nonce.getD i 0 = s.storeByte .iv i := by
  have := s.memRead_getD .iv 0 s.ivLen.toNat i h
  rwa [Nat.zero_add] at this

/-- What a command computes once its checks pass. -/
def resultOf : Instr → State → RunOutcome
  | .pad, s => .ok (pad16 s.message)
  | .unpad, s => unpad16 s.message
  | .xor, s => .ok (xorN s.dataLength s.message s.xorOperand)
  | .cbcEnc, s => .ok (cbcEncrypt s.key s.iv (pad16 s.message))
  | .cbcDec, s => unpad16 (cbcDecrypt s.key s.iv s.message)
  | .ctrEnc, s => .ok (ctrXcrypt s.key s.iv s.message)
  | .ctrDec, s => .ok (ctrXcrypt s.key s.iv s.message)
  | .ccmEnc, s => .ok (ccmSeal s.key s.nonce s.message s.assocData)
  | .ccmDec, s => ccmOpen s.key s.nonce s.message s.assocData

/-- 60_exceptions.md R177: where a command's checks pass, its outcome is what it computes; where one fails, an error
that no data decides: neither PADDING nor AUTH. -/
theorem runOf_cases (c : Instr) (s : State) :
    (Ready c s ∧ runOf c s = resultOf c s) ∨
    (¬ Ready c s ∧ ∃ e, runOf c s = .error e ∧ e ≠ .padding ∧ e ≠ .auth) := by
  have hk := s.keyLength_eq_iff
  have hi := s.ivLength_eq_iff
  cases c
  case pad =>
    simp only [Ready, runOf, resultOf, runPad]
    split
    · exact .inr ⟨Nat.not_le.2 ‹_›, _, rfl, nofun, nofun⟩
    · exact .inl ⟨Nat.le_of_not_lt ‹_›, rfl⟩
  case unpad =>
    simp only [Ready, runOf, resultOf, runUnpad]
    split
    · exact .inr ⟨Nat.not_le.2 ‹_›, _, rfl, nofun, nofun⟩
    · exact .inl ⟨Nat.le_of_not_lt ‹_›, rfl⟩
  case xor =>
    simp only [Ready, runOf, resultOf, runXor]
    split
    · exact .inr ⟨fun h => Nat.not_le.2 ‹_› h.1, _, rfl, nofun, nofun⟩
    split
    · exact .inr ⟨fun h => Nat.not_le.2 ‹Config.aadMax < _› h.2, _, rfl, nofun, nofun⟩
    · exact .inl ⟨⟨Nat.le_of_not_lt ‹_›, Nat.le_of_not_lt ‹¬ Config.aadMax < _›⟩, rfl⟩
  case cbcEnc =>
    simp only [Ready, runOf, resultOf, runCbcEnc, ne_eq, hk, hi]
    split
    · exact .inr ⟨fun h => Nat.not_le.2 ‹_› h.1, _, rfl, nofun, nofun⟩
    split
    · exact .inr ⟨fun h => ‹¬ s.keyLen = 16› h.2.1, _, rfl, nofun, nofun⟩
    split
    · exact .inr ⟨fun h => ‹¬ s.ivLen = 16› h.2.2, _, rfl, nofun, nofun⟩
    · exact .inl ⟨⟨Nat.le_of_not_lt ‹_›, not_not.1 ‹¬¬ s.keyLen = 16›, not_not.1 ‹¬¬ s.ivLen = 16›⟩, rfl⟩
  case cbcDec =>
    simp only [Ready, runOf, resultOf, runCbcDec, ne_eq, hk, hi]
    split
    · exact .inr ⟨fun h => Nat.not_le.2 ‹_› h.1, _, rfl, nofun, nofun⟩
    split
    · exact .inr ⟨fun h => ‹¬ s.keyLen = 16› h.2.1, _, rfl, nofun, nofun⟩
    split
    · exact .inr ⟨fun h => ‹¬ s.ivLen = 16› h.2.2.1, _, rfl, nofun, nofun⟩
    split
    · exact .inr ⟨fun h => ‹¬ s.dataLength % 16 = 0› h.2.2.2, _, rfl, nofun, nofun⟩
    · exact .inl ⟨⟨Nat.le_of_not_lt ‹_›, not_not.1 ‹¬¬ s.keyLen = 16›, not_not.1 ‹¬¬ s.ivLen = 16›,
        not_not.1 ‹¬¬ s.dataLength % 16 = 0›⟩, rfl⟩
  case ctrEnc =>
    simp only [Ready, runOf, resultOf, runCtrEnc, ctrCommand, ne_eq, hk, hi]
    split
    · exact .inr ⟨fun h => Nat.not_le.2 ‹_› h.1, _, rfl, nofun, nofun⟩
    split
    · exact .inr ⟨fun h => ‹¬ s.keyLen = 16› h.2.1, _, rfl, nofun, nofun⟩
    split
    · exact .inr ⟨fun h => ‹¬ s.ivLen = 16› h.2.2, _, rfl, nofun, nofun⟩
    · exact .inl ⟨⟨Nat.le_of_not_lt ‹_›, not_not.1 ‹¬¬ s.keyLen = 16›, not_not.1 ‹¬¬ s.ivLen = 16›⟩, rfl⟩
  case ctrDec =>
    simp only [Ready, runOf, resultOf, runCtrDec, ctrCommand, ne_eq, hk, hi]
    split
    · exact .inr ⟨fun h => Nat.not_le.2 ‹_› h.1, _, rfl, nofun, nofun⟩
    split
    · exact .inr ⟨fun h => ‹¬ s.keyLen = 16› h.2.1, _, rfl, nofun, nofun⟩
    split
    · exact .inr ⟨fun h => ‹¬ s.ivLen = 16› h.2.2, _, rfl, nofun, nofun⟩
    · exact .inl ⟨⟨Nat.le_of_not_lt ‹_›, not_not.1 ‹¬¬ s.keyLen = 16›, not_not.1 ‹¬¬ s.ivLen = 16›⟩, rfl⟩
  case ccmEnc =>
    simp only [Ready, runOf, resultOf, runCcmEnc, ne_eq, hk]
    split
    · exact .inr ⟨fun h => Nat.not_le.2 ‹_› h.1, _, rfl, nofun, nofun⟩
    split
    · exact .inr ⟨fun h => Nat.not_le.2 ‹Config.aadMax < _› h.2.1, _, rfl, nofun, nofun⟩
    split
    · exact .inr ⟨fun h => ‹¬ s.keyLen = 16› h.2.2.1, _, rfl, nofun, nofun⟩
    split
    · rename_i hN
      exact .inr ⟨fun h => hN.elim (Nat.not_lt.2 h.2.2.2.1) (Nat.not_lt.2 h.2.2.2.2.1), _, rfl, nofun, nofun⟩
    split
    · rename_i hp
      exact .inr ⟨fun h => Nat.not_lt.2 hp h.2.2.2.2.2, _, rfl, nofun, nofun⟩
    · rename_i hN hp
      exact .inl ⟨⟨Nat.le_of_not_lt ‹_›, Nat.le_of_not_lt ‹¬ Config.aadMax < _›, not_not.1 ‹¬¬ s.keyLen = 16›,
        Nat.le_of_not_lt fun h => hN (.inl h), Nat.le_of_not_lt fun h => hN (.inr h), Nat.lt_of_not_le hp⟩, rfl⟩
  case ccmDec =>
    simp only [Ready, runOf, resultOf, runCcmDec, ne_eq, hk]
    split
    · exact .inr ⟨fun h => Nat.not_le.2 ‹_› h.1, _, rfl, nofun, nofun⟩
    split
    · exact .inr ⟨fun h => Nat.not_le.2 ‹Config.aadMax < _› h.2.1, _, rfl, nofun, nofun⟩
    split
    · exact .inr ⟨fun h => ‹¬ s.keyLen = 16› h.2.2.1, _, rfl, nofun, nofun⟩
    split
    · rename_i hN
      exact .inr ⟨fun h => hN.elim (Nat.not_lt.2 h.2.2.2.2.1) (Nat.not_lt.2 h.2.2.2.2.2.1), _, rfl, nofun, nofun⟩
    split
    · rename_i hn
      exact .inr ⟨fun h => Nat.not_lt.2 h.2.2.2.1 hn, _, rfl, nofun, nofun⟩
    split
    · rename_i hp
      exact .inr ⟨fun h => Nat.not_lt.2 hp h.2.2.2.2.2.2, _, rfl, nofun, nofun⟩
    · rename_i hN hn hp
      exact .inl ⟨⟨Nat.le_of_not_lt ‹_›, Nat.le_of_not_lt ‹¬ Config.aadMax < _›, not_not.1 ‹¬¬ s.keyLen = 16›,
        Nat.le_of_not_lt hn, Nat.le_of_not_lt fun h => hN (.inl h), Nat.le_of_not_lt fun h => hN (.inr h),
        Nat.lt_of_not_le hp⟩, rfl⟩

/-- A command whose checks pass computes. -/
theorem runOf_ready {c : Instr} {s : State} (h : Ready c s) : runOf c s = resultOf c s :=
  (runOf_cases c s).elim (fun h' => h'.2) (fun h' => absurd h h'.1)

/-- A command that answers `ok` has passed its checks. -/
theorem ready_of_ok {c : Instr} {s : State} {y : List Byte} (h : runOf c s = .ok y) : Ready c s :=
  (runOf_cases c s).elim (fun h' => h'.1) (fun ⟨_, _, he, _⟩ => absurd (h.symm.trans he) nofun)

end Sys2Proof.Machine
end

