-- ==== Sys2Proof/Laws/PerInstr.lean ====
section
/-! SUPPORT. What holds of every command as syntax, one lemma per constructor. -/

namespace Sys2Proof.Laws

/-- 30_encoding.md R76, R77, R80, R82: the word of a command is legal, is its OP value with RES 0, and is the one word
that decodes to the command and that the table's numbering gives. -/
def EncodingLegal.Statement (i : Instr) : Prop :=
  i.wf = true ∧ legalWord (encode i) = true ∧ (encode i).toNat = (opOf i).toNat ∧ decode (encode i) = .ok i ∧
    decodeTableWord 32 (encode i).toNat = some i

theorem EncodingLegal.pad : EncodingLegal.Statement .pad := ⟨rfl, rfl, rfl, rfl, rfl⟩

theorem EncodingLegal.unpad : EncodingLegal.Statement .unpad := ⟨rfl, rfl, rfl, rfl, rfl⟩

theorem EncodingLegal.xor : EncodingLegal.Statement .xor := ⟨rfl, rfl, rfl, rfl, rfl⟩

theorem EncodingLegal.cbcEnc : EncodingLegal.Statement .cbcEnc := ⟨rfl, rfl, rfl, rfl, rfl⟩

theorem EncodingLegal.cbcDec : EncodingLegal.Statement .cbcDec := ⟨rfl, rfl, rfl, rfl, rfl⟩

theorem EncodingLegal.ctrEnc : EncodingLegal.Statement .ctrEnc := ⟨rfl, rfl, rfl, rfl, rfl⟩

theorem EncodingLegal.ctrDec : EncodingLegal.Statement .ctrDec := ⟨rfl, rfl, rfl, rfl, rfl⟩

theorem EncodingLegal.ccmEnc : EncodingLegal.Statement .ccmEnc := ⟨rfl, rfl, rfl, rfl, rfl⟩

theorem EncodingLegal.ccmDec : EncodingLegal.Statement .ccmDec := ⟨rfl, rfl, rfl, rfl, rfl⟩

end Sys2Proof.Laws
end

