-- ==== Sys2Proof/Tests/Slice0.lean ====
section
/-! SUPPORT. The model's own tests: the command words and the check of each, the spec's worked vectors
(95_test_vectors.md), and for every statement with hypotheses a state and operands that meet them. A witness that needs a
larger buffer than the smallest legal one (00_scope.md R7, R8: IN_MAX may be 16 and AAD_MAX may be 0) says so in its
premise. -/

namespace Sys2Proof.Tests

open Sys2Proof.Machine

/-! ### Command words (30_encoding.md R76, written from RES in bits 31:4 and OP in bits 3:0) -/

theorem test_decode_pad : decode 0b0000_0000_0000_0000_0000_0000_0000_0001 = .ok .pad := rfl

theorem test_decode_unpad : decode 0b0000_0000_0000_0000_0000_0000_0000_0010 = .ok .unpad := rfl

theorem test_decode_xor : decode 0b0000_0000_0000_0000_0000_0000_0000_0011 = .ok .xor := rfl

theorem test_decode_cbcEnc : decode 0b0000_0000_0000_0000_0000_0000_0000_0100 = .ok .cbcEnc := rfl

theorem test_decode_cbcDec : decode 0b0000_0000_0000_0000_0000_0000_0000_0101 = .ok .cbcDec := rfl

theorem test_decode_ctrEnc : decode 0b0000_0000_0000_0000_0000_0000_0000_0110 = .ok .ctrEnc := rfl

theorem test_decode_ctrDec : decode 0b0000_0000_0000_0000_0000_0000_0000_0111 = .ok .ctrDec := rfl

theorem test_decode_ccmEnc : decode 0b0000_0000_0000_0000_0000_0000_0000_1000 = .ok .ccmEnc := rfl

theorem test_decode_ccmDec : decode 0b0000_0000_0000_0000_0000_0000_0000_1001 = .ok .ccmDec := rfl

/-- R80: a nonzero RES bit, the lowest and the highest, and both bounds of the reserved OP values. -/
theorem test_decode_illegal :
    decode 0x00000011 = .error .resBits ∧ decode 0x80000001 = .error .resBits ∧ decode 0x00000000 = .error .opReserved ∧
      decode 0x0000000A = .error .opReserved ∧ decode 0x0000000F = .error .opReserved := ⟨rfl, rfl, rfl, rfl, rfl⟩

/-- opcode_table.json: the row of CCM_DEC, and a word wider than the table's 32 bits. -/
theorem test_decodeTableWord : decodeTableWord 32 9 = some .ccmDec ∧ decodeTableWord 40 9 = none := ⟨rfl, rfl⟩

/-! ### WellFormed: each check refuses an ill-formed word -/

/-- The RES check refuses a word with a legal OP and a bit of RES. -/
theorem test_wf_res : resClear 0x00000011 = false ∧ opAssigned 0x00000011 = true ∧ legalWord 0x00000011 = false := by
  decide

/-- The OP check refuses 0x0 and 0xA. -/
theorem test_wf_op : opAssigned 0x00000000 = false ∧ opAssigned 0x0000000A = false ∧ legalWord 0x0000000A = false := by
  decide

/-- 30_encoding.md R84: `o` must be a multiple of 4, and the words stay in the window. -/
theorem test_wf_line :
    (HostLine.wrb .inp 2 [0x41]).wf = false ∧ (HostLine.rdb .out 1 4).wf = false ∧
      (HostLine.rdb .out 0xFFFFC 5).wf = false ∧ (HostLine.wrb .inp 4 [0x41]).wf = true := by
  decide

/-! ### Small states -/

/-- A state with a message in IN. -/
def withMessage (s : State) (x : List Byte) : State :=
  { s with dataLen := BitVec.ofNat 32 x.length, mem := s.mem.setBytes Store.inp.base x }

/-- A state with bytes in AAD. -/
def withAad (s : State) (x : List Byte) : State := { s with mem := s.mem.setBytes Store.aad.base x }

/-- IDLE, with the lengths of a CBC or CTR command. -/
def keyed : State := { State.reset with keyLen := 16, ivLen := 16 }

/-- IDLE, with the lengths of a CCM command and a nonce of N bytes. -/
def nonced (N : Nat) : State := { State.reset with keyLen := 16, ivLen := BitVec.ofNat 8 N }

/-- The state with DATA_LEN set. -/
def sized (s : State) (n : Nat) : State := { s with dataLen := BitVec.ofNat 32 n }

/-- BUSY on a word, with d host moves before its completion. -/
def running (w : Word) (d : Nat) (moves : List HostMove) : State :=
  { State.reset.accept w with lag := d, host := moves }

/-- What STATUS reads after a step. -/
def statusAfter (s : State) : Option Word :=
  match step s with
  | .next t => some (t.busRead 4)
  | .fault _ => none
  | .refused _ => none

/-- The state a command leaves. -/
def after (c : Instr) (s : State) : State := s.commit (runOf c s)

/-- A state whose IN holds what t holds in OUT, DATA_LEN its length. -/
def fedBack (s t : State) : State := withMessage s (t.memRead .out 0 t.outLen.toNat)

/-! ### Vectors (95_test_vectors.md) -/

/-- V-PAD-2. -/
theorem test_pad : runPad (withMessage State.reset [0x61, 0x62, 0x63]) =
    .ok [0x61, 0x62, 0x63, 13, 13, 13, 13, 13, 13, 13, 13, 13, 13, 13, 13, 13] := by rfl

/-- V-PAD-1: a whole block of padding for the empty message. -/
theorem test_pad_empty : runPad State.reset = .ok (List.replicate 16 0x10) := by rfl

/-- V-UNP-7: the length need not be a multiple of 16. -/
theorem test_unpad : runUnpad (withMessage State.reset [0x41, 3, 3, 3]) = .ok [0x41] := by rfl

/-- V-UNP-8. -/
theorem test_unpad_run : runUnpad (withMessage State.reset [0x41, 2, 3, 3]) = .error .padding := by rfl

/-- V-XOR-1, on the datapath: AAD_MAX may be 0. -/
theorem test_xor : xorN 2 [0x0F, 0xF0] [0xFF, 0xFF] = [0xF0, 0x0F] := by decide

/-- V-XOR-2. -/
theorem test_xor_empty : runXor State.reset = .ok [] := by rfl

/-- V-CBC-S1: `E(k, iv ⊕ 10^16)`, with the zero IV. -/
theorem test_cbcEnc_empty :
    runCbcEnc keyed = .ok (Config.E keyed.key (Vector.replicate 16 0x10)).toList := by
  have h : Ready .cbcEnc keyed := ⟨Nat.zero_le _, rfl, rfl⟩
  have e : resultOf .cbcEnc keyed = .ok (Config.E keyed.key (Vector.replicate 16 0x10)).toList := by
    simp only [resultOf, cbcEncrypt]
    rw [show blocks (pad16 keyed.message) = [Vector.replicate 16 0x10] by decide]
    simp only [cbcEncBlocks, unblocks_cons, unblocks_nil, List.append_nil]
    rw [show blockXor (Vector.replicate 16 0x10) keyed.iv = Vector.replicate 16 0x10 by decide]
  rw [show runCbcEnc keyed = runOf .cbcEnc keyed from rfl, runOf_ready h, e]

/-- V-CBC-14. -/
theorem test_cbcDec_empty : runCbcDec keyed = .error .padding := by rfl

/-- 95_test_vectors.md 2.5: the wrap, and a carry over two bytes. -/
theorem test_ctrInc :
    ctrInc (Vector.replicate 16 0xFF) = Vector.replicate 16 0 ∧
      ctrInc #v[0, 0, 0, 0, 0, 0, 0, 0, 0, 0, 0, 0, 0, 0, 0xFF, 0xFF] =
        #v[0, 0, 0, 0, 0, 0, 0, 0, 0, 0, 0, 0, 0, 1, 0, 0] := by decide

/-- V-CTR-7, for both names. -/
theorem test_ctr_empty : runCtrEnc keyed = .ok [] ∧ runCtrDec keyed = .ok [] := ⟨by rfl, by rfl⟩

/-- 95_test_vectors.md 2.6: the flags byte for N = 7 and N = 13, without and with associated data. -/
theorem test_ccm_flags :
    ccmFlags false 8 = 0x3F ∧ ccmFlags true 8 = 0x7F ∧ ccmFlags false 2 = 0x39 ∧ ccmFlags true 2 = 0x79 := by decide

/-- V-CCM-2: B0 and A_2. -/
theorem test_ccm_blocks :
    ccmB0 [0x10, 0x11, 0x12, 0x13, 0x14, 0x15, 0x16, 0x17, 0x18, 0x19, 0x1A, 0x1B, 0x1C] 20 true =
        #v[0x79, 0x10, 0x11, 0x12, 0x13, 0x14, 0x15, 0x16, 0x17, 0x18, 0x19, 0x1A, 0x1B, 0x1C, 0, 0x14] ∧
      ccmCounterBlock [0x10, 0x11, 0x12, 0x13, 0x14, 0x15, 0x16, 0x17, 0x18, 0x19, 0x1A, 0x1B, 0x1C] 2 =
        #v[1, 0x10, 0x11, 0x12, 0x13, 0x14, 0x15, 0x16, 0x17, 0x18, 0x19, 0x1A, 0x1B, 0x1C, 0, 2] := by decide

/-- 95_test_vectors.md 2.6: AADS of five bytes, and of none. -/
theorem test_ccm_aads :
    ccmAads [0xA0, 0xA1, 0xA2, 0xA3, 0xA4] = [0, 5, 0xA0, 0xA1, 0xA2, 0xA3, 0xA4, 0, 0, 0, 0, 0, 0, 0, 0, 0] ∧
      ccmAads [] = [] := by decide

/-- W-3: nonce lengths 6 and 14 are refused. -/
theorem test_ccm_nonce :
    runCcmEnc (nonced 6) = .error (.length .ivLen) ∧ runCcmEnc (nonced 14) = .error (.length .ivLen) := ⟨by rfl, by rfl⟩

/-- V-CCM-8: a ciphertext shorter than the tag. -/
theorem test_ccmDec_short : runCcmDec (sized (nonced 13) 15) = .error (.length .dataShort) := by rfl

/-- V-BUS-1, V-BUS-2. -/
theorem test_bus_lanes : (State.reset.busWrite 0x100000 0x03020100).busRead 0x100002 = 0x03020100 := by decide

/-- V-BUS-3, V-BUS-6, V-BUS-7. -/
theorem test_bus_registers :
    (State.reset.busWrite 0x40 0x12345678).busRead 0x40 = 0 ∧
      (State.reset.busWrite 0x40 0x12345678).memRead .key 0 4 = [0x78, 0x56, 0x34, 0x12] ∧
      (State.reset.busWrite 0x8 0xFFFFFF10).busRead 0x8 = 0x10 ∧
      (State.reset.busWrite 0x14 0x00012345).busRead 0x14 = 0x2345 := by decide

/-- V-BUS-11: a write while BUSY. -/
theorem test_bus_busy : ((running 1 1 []).busWrite 0x10 0x4).busRead 4 = 0x9 := by decide

/-- Program P4: PADDING, the two illegal words, and CIPHER_INIT straight after reset. -/
theorem test_status_words :
    statusAfter (State.reset.withFetchWord 32 2) = some 0x36 ∧
      statusAfter (State.reset.withFetchWord 32 0x12) = some 0x256 ∧
      statusAfter (State.reset.withFetchWord 32 0xA) = some 0x156 ∧
      statusAfter (State.reset.withFetchWord 32 4) = some 0x16 := ⟨by rfl, by rfl, by rfl, by rfl⟩

/-! ### Lemmas for the witnesses -/

theorem exec_after (c : Instr) (s : State) : exec c s = .next (after c s) := exec_eq_commit c s

theorem sized_dataLen (s : State) (n : Nat) (h : n < 2 ^ 32) : (sized s n).dataLen.toNat = n :=
  (BitVec.toNat_ofNat n 32).trans (Nat.mod_eq_of_lt h)

theorem sized_inMax (s : State) : (sized s Config.inMax).dataLen.toNat = Config.inMax :=
  sized_dataLen s _ (by have := Config.inMax_le; omega)

theorem sized_beyond (s : State) : (sized s (Config.inMax + 1)).dataLen.toNat = Config.inMax + 1 :=
  sized_dataLen s _ (by have := Config.inMax_le; omega)

/-- A message stands in IN byte by byte. -/
theorem withMessage_byte (s : State) (x : List Byte) (i : Nat) (h : i < x.length) :
    (withMessage s x).storeByte .inp i = x.getD i 0 := by
  refine (s.ramByte_setBytes Store.inp.base (Store.inp.base + i) x).trans ?_
  rw [if_pos ⟨by omega, by omega⟩, Nat.add_sub_cancel_left]

/-- A message that fits IN's slot of the window leaves AAD as it was. -/
theorem withMessage_aad (s : State) (x : List Byte) (i : Nat) (h : x.length ≤ 0x100000) :
    (withMessage s x).storeByte .aad i = s.storeByte .aad i := by
  refine (s.ramByte_setBytes Store.inp.base (Store.aad.base + i) x).trans ?_
  rw [if_neg (by
    have : Store.aad.base = Store.inp.base + 0x100000 := rfl
    omega)]
  rfl

/-- A message of one block is that block. -/
theorem withMessage_block (s : State) (b : Block16) :
    blockAt (fun i => (withMessage s b.toList).storeByte .inp i) 0 = b := by
  refine Vector.ext fun i hi => ?_
  rw [blockAt, Vector.getElem_ofFn, Nat.mul_zero, Nat.zero_add, withMessage_byte _ _ _ (by simpa using hi),
    block_toList_getD _ _ hi]

theorem fedBack_dataLen (s t : State) : (fedBack s t).dataLen = t.outLen := by
  simp [fedBack, withMessage]

theorem fedBack_byte (s t : State) (i : Nat) (h : i < t.outLen.toNat) :
    (fedBack s t).storeByte .inp i = t.storeByte .out i := by
  rw [fedBack, withMessage_byte _ _ _ (by simpa using h), State.memRead_getD _ _ _ _ _ h, Nat.zero_add]

/-- OUT_LEN after a command whose checks pass and that computes y. -/
theorem after_outLen {c : Instr} {s : State} {y : List Byte} (hr : Ready c s) (hy : resultOf c s = .ok y)
    (hl : y.length < 2 ^ 32) : (after c s).outLen.toNat = y.length := by
  rw [after, runOf_ready hr, hy]
  exact (BitVec.toNat_ofNat _ _).trans (Nat.mod_eq_of_lt hl)

theorem ready_keyed (n : Nat) (h : n ≤ Config.inMax) : Ready .cbcEnc (sized keyed n) :=
  ⟨(sized_dataLen keyed n (by have := Config.inMax_le; omega)).trans_le h, rfl, rfl⟩

/-- The length of a CBC ciphertext. -/
theorem cbcEnc_outLen (n : Nat) (h : n ≤ Config.inMax) :
    (after .cbcEnc (sized keyed n)).outLen.toNat = 16 * (n / 16 + 1) := by
  have hi := Config.inMax_le
  have hc : ∀ (P : List Block16) (k iv), (cbcEncBlocks k iv P).length = P.length := by
    intro P k
    induction P with
    | nil => intro iv; rfl
    | cons p P ih => intro iv; simp only [cbcEncBlocks, List.length_cons, ih]
  have hd := sized_dataLen keyed n (by omega)
  have hl : (cbcEncrypt (sized keyed n).key (sized keyed n).iv (pad16 (sized keyed n).message)).length =
      16 * (n / 16 + 1) := by
    rw [cbcEncrypt, unblocks_length, hc, blocks_length, pad16_length, State.message_length, hd]; omega
  rw [after_outLen (ready_keyed n h) rfl (by rw [hl]; omega), hl]

theorem ready_nonced (n : Nat) (h : n ≤ Config.inMax) : Ready .ccmEnc (sized (nonced 7) n) := by
  have hi := Config.inMax_le
  have hd := sized_dataLen (nonced 7) n (by omega)
  have hN : (sized (nonced 7) n).ivLen.toNat = 7 := rfl
  exact ⟨hd.trans_le h, Nat.zero_le _, rfl, by omega, by omega, by rw [hd, hN]; omega⟩

/-- The length of a CCM ciphertext and tag. -/
theorem ccmEnc_outLen (s : State) (hr : Ready .ccmEnc s) :
    (after .ccmEnc s).outLen.toNat = s.dataLen.toNat + 16 := by
  have hi := Config.inMax_le
  have hn : s.dataLen.toNat ≤ Config.inMax := hr.1
  have hl : (ccmSeal s.key s.nonce s.message s.assocData).length = s.dataLen.toNat + 16 := by
    rw [ccmSeal, List.length_append, ccmCtr,
      streamXor_length _ _ (by simp only [ccmKeystream, nblk, List.length_map, List.length_range]; omega),
      State.message_length, Vector.length_toList]
  rw [after_outLen hr rfl (by rw [hl]; omega), hl]

/-! ### Witnesses: command words and the step -/

theorem test_witness_IllegalWordsAndTheirCause :
    (0x10 : Word).toNat / 16 ≠ 0 ∧ ((0 : Word).toNat / 16 = 0 ∧ (0 : Word).toNat % 16 = 0) ∧
      ((10 : Word).toNat / 16 = 0 ∧ 10 ≤ (10 : Word).toNat % 16) ∧ (1 ≤ (1 : Word).toNat ∧ (1 : Word).toNat ≤ 9) ∧
      (1 ≤ (9 : Word).toNat ∧ (9 : Word).toNat ≤ 9) := by decide

/-- Both ways for the completion step to come: no host move goes first, or the host has none. -/
theorem test_witness_StepRunsTheLatchedCommand :
    ((running 4 0 [.read 4]).busy = true ∧ (running 4 0 [.read 4]).lag = 0 ∧
      decode (running 4 0 [.read 4]).latch = .ok .cbcEnc) ∧
    ((running 9 3 []).busy = true ∧ (running 9 3 []).host = [] ∧ decode (running 9 3 []).latch = .ok .ccmDec) :=
  ⟨⟨rfl, rfl, rfl⟩, rfl, rfl, rfl⟩

/-- RES_BITS at the lowest reserved bit, OP_RESERVED at both bounds. -/
theorem test_witness_IllegalWordCompletesWithIllegalCmd :
    ((running 0x10 0 []).busy = true ∧ (running 0x10 0 []).lag = 0 ∧ (running 0x10 0 []).latch.toNat / 16 ≠ 0) ∧
    ((running 0 0 []).latch.toNat / 16 = 0 ∧ (running 0 0 []).latch.toNat % 16 = 0) ∧
    ((running 10 0 []).latch.toNat / 16 = 0 ∧ 10 ≤ (running 10 0 []).latch.toNat % 16) := by decide

/-- A running command with no reset among the host's coming moves. -/
theorem test_witness_AcceptedCommandCompletes :
    (running 1 5 [.wait, .read 4]).busy = true ∧ .reset ∉ (running 1 5 [.wait, .read 4]).host := by decide

theorem test_witness_SnapshotHeldWhileBusy :
    (running 1 1 [.write 0x10 4]).busy = true ∧ (running 1 1 [.write 0x10 4]).lag ≠ 0 ∧
      (running 1 1 [.write 0x10 4]).host = [.write 0x10 4] ∧ HostMove.write 0x10 4 ≠ .reset := by decide

/-! ### Witnesses: the bus -/

/-- A read and a write, while IDLE and while BUSY. -/
theorem test_witness_HostTransactionTakesEffect :
    ({ State.reset with host := [.read 4] }.busy = false ∧ { State.reset with host := [.read 4] }.host = [.read 4]) ∧
    ((running 1 1 [.read 4]).lag ≠ 0 ∧ (running 1 1 [.read 4]).host = [.read 4]) ∧
    ({ State.reset with host := [.write 0 1] }.busy = false ∧
      { State.reset with host := [.write 0 1] }.host = [.write 0 1]) ∧
    ((running 1 1 [.write 4 8]).lag ≠ 0 ∧ (running 1 1 [.write 4 8]).host = [.write 4 8]) := by decide

theorem test_witness_BusIgnoresLowAddressBits : (0x100003 : Offset).toNat / 4 = (0x100000 : Offset).toNat / 4 := by
  decide

/-- The first and the last address of the window, and the first beyond it. -/
theorem test_witness_WindowIsFourMiBAtBase :
    (Config.base ≤ Config.base ∧ Config.base < Config.base + 0x400000) ∧
    (Config.base ≤ Config.base + 0x3FFFFF ∧ Config.base + 0x3FFFFF < Config.base + 0x400000) ∧
    Config.base + 0x400000 ≤ Config.base + 0x400000 := by omega

theorem test_witness_LengthRegisterWrites : State.reset.busy = false := rfl

/-- The first and the last word of IN, a byte inside the written word and one outside it. -/
theorem test_witness_BufferWriteLanes :
    State.reset.busy = false ∧ 4 * 0 < Store.inp.size ∧ 4 * (Config.inMax / 4 - 1) < Store.inp.size ∧
    (3 < 4 ∧ 4 * 0 + 3 < Store.inp.size) ∧
    ¬ (Store.inp.base + 4 * 0 ≤ Store.out.base ∧ Store.out.base < Store.inp.base + 4 * 0 + 4 ∧
      Store.out.base < Store.inp.base + Store.inp.size) := by
  have := Config.inMax_ge
  have : Store.inp.size = Config.inMax := rfl
  have : Store.inp.base = 0x100000 := rfl
  have : Store.out.base = 0x300000 := rfl
  exact ⟨rfl, by omega, by omega, by omega, by omega⟩

/-- The words of AAD, where AAD_MAX is not 0: the first, and the last one with a mapped byte. -/
theorem test_witness_BufferWriteLanes_aad (h : Config.aadMax ≠ 0) :
    4 * 0 < Store.aad.size ∧ 4 * ((Config.aadMax - 1) / 4) < Store.aad.size := by
  have : Store.aad.size = Config.aadMax := rfl
  omega

/-- The first word of IN, the last of IV and of OUT; the unmapped ranges at their bounds (the
largest OUT fills its slot). -/
theorem test_witness_BufferReadLanes :
    (4 * 0 < Store.inp.size ∧ 4 * 3 < Store.iv.size ∧ 4 * ((Config.outCap - 1) / 4) < Store.out.size ∧ 3 < 4) ∧
    0x24 = (0x24 : Offset).toNat - (0x24 : Offset).toNat % 4 ∧
    (0x3C = (0x3F : Offset).toNat - (0x3F : Offset).toNat % 4 ∧ 0x3C < 0x40) ∧
    0x60 = (0x60 : Offset).toNat - (0x60 : Offset).toNat % 4 ∧
    (0x1FFFFC = (0x1FFFFF : Offset).toNat - (0x1FFFFF : Offset).toNat % 4 ∧ 0x100000 + Config.inMax ≤ 0x1FFFFC) ∧
    (0x2FFFFC = (0x2FFFFF : Offset).toNat - (0x2FFFFF : Offset).toNat % 4 ∧ 0x200000 + Config.aadMax ≤ 0x2FFFFC) ∧
    0x3FFFFC = (0x3FFFFF : Offset).toNat - (0x3FFFFF : Offset).toNat % 4 ∧
    (Config.inMax < 0xFFFF0 → 0x300000 + Config.outCap ≤ 0x3FFFFC) := by
  have := Config.inMax_ge
  have := Config.inMax_le
  have := Config.aadMax_le
  have := Config.outCap_eq
  have : Store.inp.size = Config.inMax := rfl
  have : Store.out.size = Config.outCap := rfl
  exact ⟨⟨by omega, by decide, by omega, by omega⟩, by decide, by decide, by decide, ⟨by decide, by omega⟩,
    ⟨by decide, by omega⟩, by decide, fun _ => by have := Config.inMax_mod; omega⟩

/-- The first and the last byte of KEY's window. -/
theorem test_witness_KeyNeverReadsBack :
    (0x40 ≤ (0x40 : Offset).toNat ∧ (0x40 : Offset).toNat < 0x50) ∧
      (0x40 ≤ (0x4F : Offset).toNat ∧ (0x4F : Offset).toNat < 0x50) := by decide

theorem test_witness_KeyAndIvWriteLanes : State.reset.busy = false ∧ 0 < 4 ∧ 3 < 4 := by decide

theorem test_witness_AcceptanceEffect : State.reset.busy = false ∧ decode 0xFFFFFFFF = .error .resBits := ⟨rfl, rfl⟩

/-- Each target, at the bounds of its range. -/
theorem test_witness_WriteWhileBusyIsDropped :
    (running 1 1 []).busy = true ∧ 0 = (3 : Offset).toNat - (3 : Offset).toNat % 4 ∧
    0x008 = (0x008 : Offset).toNat - (0x008 : Offset).toNat % 4 ∧
    0x00C = (0x00C : Offset).toNat - (0x00C : Offset).toNat % 4 ∧
    0x010 = (0x010 : Offset).toNat - (0x010 : Offset).toNat % 4 ∧
    0x014 = (0x014 : Offset).toNat - (0x014 : Offset).toNat % 4 ∧
    0x40 = (0x40 : Offset).toNat - (0x40 : Offset).toNat % 4 ∧
    (0x5C = (0x5F : Offset).toNat - (0x5F : Offset).toNat % 4 ∧ 0x40 ≤ 0x5C ∧ 0x5C < 0x60) ∧
    (0x100000 = (0x100000 : Offset).toNat - (0x100000 : Offset).toNat % 4 ∧ 0x100000 < 0x100000 + Config.inMax) ∧
    (0x10000C = (0x10000C : Offset).toNat - (0x10000C : Offset).toNat % 4 ∧ 0x10000C < 0x100000 + Config.inMax) := by
  have := Config.inMax_ge
  exact ⟨rfl, by decide, by decide, by decide, by decide, by decide, by decide, by decide, ⟨by decide, by omega⟩,
    by decide, by omega⟩

/-- The AAD window, where AAD_MAX is not 0. -/
theorem test_witness_WriteWhileBusyIsDropped_aad (h : Config.aadMax ≠ 0) :
    0x200000 = (0x200000 : Offset).toNat - (0x200000 : Offset).toNat % 4 ∧ 0x200000 < 0x200000 + Config.aadMax :=
  ⟨by decide, by omega⟩

/-- Each range, at its bounds. -/
theorem test_witness_IgnoredWritesChangeNothing :
    0x018 = (0x018 : Offset).toNat - (0x018 : Offset).toNat % 4 ∧
    (0x3C = (0x3F : Offset).toNat - (0x3F : Offset).toNat % 4 ∧ 0x3C < 0x40) ∧
    0x60 = (0x60 : Offset).toNat - (0x60 : Offset).toNat % 4 ∧
    (0xFFFFC = (0xFFFFF : Offset).toNat - (0xFFFFF : Offset).toNat % 4 ∧ 0xFFFFC < 0x100000) ∧
    (0x1FFFFC = (0x1FFFFC : Offset).toNat - (0x1FFFFC : Offset).toNat % 4 ∧
      0x100000 + Config.inMax ≤ 0x1FFFFC ∧ 0x1FFFFC < 0x200000) ∧
    (0x2FFFFC = (0x2FFFFC : Offset).toNat - (0x2FFFFC : Offset).toNat % 4 ∧
      0x200000 + Config.aadMax ≤ 0x2FFFFC ∧ 0x2FFFFC < 0x300000) ∧
    0x300000 = (0x300000 : Offset).toNat - (0x300000 : Offset).toNat % 4 ∧
    0x3FFFFC = (0x3FFFFF : Offset).toNat - (0x3FFFFF : Offset).toNat % 4 := by
  have := Config.inMax_le
  have := Config.aadMax_le
  exact ⟨by decide, by decide, by decide, by decide, ⟨by decide, by omega, by omega⟩, ⟨by decide, by omega, by omega⟩,
    by decide, by decide⟩

/-- A line of five bytes at the first word of IN, and one of four at the last. -/
theorem test_witness_WrbStoresItsBytes :
    State.reset.busy = false ∧
    ((HostLine.wrb .inp 0 [1, 2, 3, 4, 5]).wf = true ∧ 0 + 4 * ((5 + 3) / 4) ≤ Store.inp.size) ∧
    ((HostLine.wrb .inp (Config.inMax - 4) [1, 2, 3, 4]).wf = true ∧
      Config.inMax - 4 + 4 * ((4 + 3) / 4) ≤ Store.inp.size) := by
  have h1 := Config.inMax_ge
  have h2 := Config.inMax_le
  have h3 := Config.inMax_mod
  have : Store.inp.size = Config.inMax := rfl
  refine ⟨rfl, ⟨by decide, by omega⟩, Bool.and_eq_true_iff.2 ⟨beq_iff_eq.2 (by omega), decide_eq_true ?_⟩, by omega⟩
  show 0x100000 + (Config.inMax - 4) + 4 * 1 ≤ 0x400000
  omega

/-- The WAIT loop while IDLE and while BUSY. -/
theorem test_witness_WaitLoopsWhileBusy :
    ({ State.reset with host := [.wait] }.busy = false ∧ { State.reset with host := [.wait] }.host = [.wait]) ∧
    ((running 1 1 [.wait]).lag ≠ 0 ∧ (running 1 1 [.wait]).host = [.wait]) := by decide

/-- All of IV, and a part of the first words of IN and OUT. -/
theorem test_witness_RdbYieldsTheBytes :
    ((HostLine.rdb .iv 0 16).wf = true ∧ 0 + 16 ≤ Store.iv.size) ∧
    ((HostLine.rdb .inp 4 5).wf = true ∧ 4 + 5 ≤ Store.inp.size) ∧
    ((HostLine.rdb .out 0 1).wf = true ∧ 0 + 1 ≤ Store.out.size) := by
  have := Config.inMax_ge
  have := Config.outCap_eq
  have : Store.inp.size = Config.inMax := rfl
  have : Store.out.size = Config.outCap := rfl
  exact ⟨⟨by decide, Nat.le_refl _⟩, ⟨by decide, by omega⟩, by decide, by omega⟩

/-- A write to a register, and a STATUS write that only clears WOB. -/
theorem test_witness_ResultStableUntilNextCommand :
    ({ State.reset with host := [.write 0x10 7] }.busy = false ∧
      { State.reset with host := [.write 0x10 7] }.host = [.write 0x10 7] ∧ HostMove.write 0x10 7 ≠ .reset ∧
      (0x10 : Offset).toNat / 4 ≠ 0 ∧ (0x10 : Offset).toNat / 4 ≠ 1) ∧
    (HostMove.write 4 8 ≠ .reset ∧ (4 : Offset).toNat / 4 ≠ 0 ∧ (8 : Word).getLsbD 1 = false) := by decide

/-! ### Witnesses: reset and the invariant -/

/-- A pulse while IDLE and while BUSY. -/
theorem test_witness_ResetAbandonsTheCommand :
    ({ State.reset with host := [.reset] }.busy = false ∧ { State.reset with host := [.reset] }.host = [.reset]) ∧
    ((running 1 1 [.reset]).lag ≠ 0 ∧ (running 1 1 [.reset]).host = [.reset]) := by decide

/-- A state with a command running, which a step completes. -/
theorem test_witness_StepKeepsTheInvariant :
    Inv (running 2 0 []) ∧ step (running 2 0 []) = .next (after .unpad (running 2 0 [])) :=
  ⟨⟨fun _ => ⟨rfl, rfl, rfl, rfl, rfl⟩, nofun, fun _ => ⟨rfl, rfl⟩, Nat.zero_le _, List.Pairwise.nil, nofun⟩, rfl⟩

/-- A reset while BUSY, and an acknowledge. -/
theorem test_witness_QuietOnlyAfterResetOrAcknowledge :
    ((running 1 1 [.reset]).busy = true ∧
      step (running 1 1 [.reset]) = .next ((running 1 1 [.reset]).hostMove .reset []) ∧
      ((running 1 1 [.reset]).hostMove .reset []).busy = false ∧
      ((running 1 1 [.reset]).hostMove .reset []).done = false) ∧
    ({ State.reset with done := true, host := [.write 4 2] }.done = true ∧
      step { State.reset with done := true, host := [.write 4 2] } =
        .next ({ State.reset with done := true, host := [.write 4 2] }.hostMove (.write 4 2) []) ∧
      ({ State.reset with done := true, host := [.write 4 2] }.hostMove (.write 4 2) []).busy = false ∧
      ({ State.reset with done := true, host := [.write 4 2] }.hostMove (.write 4 2) []).done = false) :=
  ⟨⟨rfl, rfl, rfl, rfl⟩, rfl, rfl, rfl, rfl⟩

/-! ### Witnesses: PAD, UNPAD, XOR -/

/-- The empty message, the longest, and one byte more. -/
theorem test_witness_PadResult :
    State.reset.dataLen.toNat ≤ Config.inMax ∧ (sized State.reset Config.inMax).dataLen.toNat ≤ Config.inMax ∧
      Config.inMax < (sized State.reset (Config.inMax + 1)).dataLen.toNat := by
  rw [sized_inMax, sized_beyond]
  exact ⟨Nat.zero_le _, Nat.le_refl _, Nat.lt_succ_self _⟩

/-- `01` is a padding of one byte; the empty message has none; one byte beyond IN. -/
theorem test_witness_UnpadResult :
    ((withMessage State.reset [1]).dataLen.toNat ≤ Config.inMax ∧
      ValidPadding ((withMessage State.reset [1]).storeByte .inp) (withMessage State.reset [1]).dataLen.toNat 1) ∧
    (State.reset.dataLen.toNat ≤ Config.inMax ∧
      ∀ p, ¬ ValidPadding (State.reset.storeByte .inp) State.reset.dataLen.toNat p) ∧
    Config.inMax < (sized State.reset (Config.inMax + 1)).dataLen.toNat := by
  refine ⟨⟨?_, by decide, by decide, by decide, fun i _ h => ?_⟩, ⟨Nat.zero_le _, fun p h => ?_⟩, ?_⟩
  · have := Config.inMax_ge
    show 1 ≤ Config.inMax
    omega
  · have : i < 1 := h
    rw [withMessage_byte _ _ _ (by simpa using this), show i = 0 by omega]; rfl
  · have h1 := h.1
    have h2 : p ≤ 0 := h.2.2.1
    omega
  · rw [sized_beyond]; omega

/-- The empty message, and one byte beyond IN. -/
theorem test_witness_XorResult :
    (State.reset.dataLen.toNat ≤ Config.inMax ∧ State.reset.dataLen.toNat ≤ Config.aadMax) ∧
      Config.inMax < (sized State.reset (Config.inMax + 1)).dataLen.toNat := by
  rw [sized_beyond]
  exact ⟨⟨Nat.zero_le _, Nat.zero_le _⟩, by omega⟩

/-- CAP_AAD, where AAD is smaller than IN: one byte beyond AAD. -/
theorem test_witness_XorResult_capAad (h : Config.aadMax < Config.inMax) :
    (sized State.reset (Config.aadMax + 1)).dataLen.toNat ≤ Config.inMax ∧
      Config.aadMax < (sized State.reset (Config.aadMax + 1)).dataLen.toNat := by
  rw [sized_dataLen _ _ (by have := Config.aadMax_le; omega)]
  omega

theorem test_witness_XorIsSelfInverse :
    2 ≤ ([0x0F, 0xF0, 0x33] : List Byte).length ∧ 2 ≤ ([0xFF, 0xFF] : List Byte).length := by decide

/-! ### Witnesses: CBC -/

/-- The empty message and the longest. -/
theorem test_witness_CbcEncResult : Ready .cbcEnc (sized keyed 0) ∧ Ready .cbcEnc (sized keyed Config.inMax) :=
  ⟨ready_keyed 0 (Nat.zero_le _), ready_keyed _ (Nat.le_refl _)⟩

/-- One block that decrypts to `10^16` under the zero IV. -/
def paddingBlock : State := withMessage keyed (Config.E keyed.key (Vector.replicate 16 0x10)).toList

theorem paddingBlock_dataLen : paddingBlock.dataLen.toNat = 16 := by
  simp [paddingBlock, withMessage]

theorem paddingBlock_block :
    blockAt (paddingBlock.storeByte .inp) 0 = Config.E keyed.key (Vector.replicate 16 0x10) :=
  withMessage_block _ _

/-- A padding of a whole block, and no padding in the empty message. -/
theorem test_witness_CbcDecResult :
    (Ready .cbcDec paddingBlock ∧ ValidPadding (cbcPlainByte paddingBlock) paddingBlock.dataLen.toNat 16) ∧
    (Ready .cbcDec keyed ∧ ∀ p, ¬ ValidPadding (cbcPlainByte keyed) keyed.dataLen.toNat p) := by
  have hd := paddingBlock_dataLen
  refine ⟨⟨⟨hd.trans_le Config.inMax_ge, rfl, rfl, by rw [hd]⟩, by decide, by decide, by rw [hd], fun i _ hi => ?_⟩,
    ⟨Nat.zero_le _, rfl, rfl, rfl⟩, fun p h => ?_⟩
  · rw [hd] at hi
    have h0 : i / 16 = 0 := by omega
    rw [cbcPlainByte, h0, if_pos rfl, paddingBlock_block, show paddingBlock.key = keyed.key from rfl, Config.D_E,
      show i % 16 = i by omega, block_toList_getD _ _ hi, blockXor_getElem _ _ _ hi, Vector.getElem_replicate,
      show paddingBlock.iv = Vector.replicate 16 0 from rfl, Vector.getElem_replicate]
    decide
  · have h1 := h.1
    have h2 : p ≤ 0 := h.2.2.1
    omega

/-- The hypotheses that both clauses share, for the empty message and for the longest; the first meets the first clause
and the second, whose ciphertext no longer fits IN, the second. -/
theorem test_witness_CbcRoundTrip :
    ∀ n, n = 0 ∨ n = Config.inMax →
      Ready .cbcEnc (sized keyed n) ∧ exec .cbcEnc (sized keyed n) = .next (after .cbcEnc (sized keyed n)) ∧
      (fedBack (sized keyed n) (after .cbcEnc (sized keyed n))).keyLen = 16 ∧
      (fedBack (sized keyed n) (after .cbcEnc (sized keyed n))).ivLen = 16 ∧
      (fedBack (sized keyed n) (after .cbcEnc (sized keyed n))).key = (sized keyed n).key ∧
      (fedBack (sized keyed n) (after .cbcEnc (sized keyed n))).iv = (sized keyed n).iv ∧
      (fedBack (sized keyed n) (after .cbcEnc (sized keyed n))).dataLen = (after .cbcEnc (sized keyed n)).outLen ∧
      (∀ i, i < (after .cbcEnc (sized keyed n)).outLen.toNat →
        (fedBack (sized keyed n) (after .cbcEnc (sized keyed n))).storeByte .inp i =
          (after .cbcEnc (sized keyed n)).storeByte .out i) ∧
      (n = 0 → (after .cbcEnc (sized keyed n)).outLen.toNat ≤ Config.inMax) ∧
      (n = Config.inMax → Config.inMax < (after .cbcEnc (sized keyed n)).outLen.toNat) := by
  intro n hn
  have h : n ≤ Config.inMax := by omega
  have hl := cbcEnc_outLen n h
  have hg := Config.inMax_ge
  exact ⟨ready_keyed n h, exec_after _ _, rfl, rfl, rfl, rfl, fedBack_dataLen _ _, fun i hi => fedBack_byte _ _ i hi,
    fun _ => by omega, fun _ => by omega⟩

/-- Two states that differ, with one block in common. -/
theorem test_witness_CbcCommonPrefix :
    Ready .cbcEnc (sized keyed 16) ∧ Ready .cbcEnc { sized keyed 16 with wob := true } ∧
      16 * 1 ≤ (sized keyed 16).dataLen.toNat ∧
      (∀ i, i < 16 * 1 → State.storeByte { sized keyed 16 with wob := true } .inp i = (sized keyed 16).storeByte .inp i) ∧
      exec .cbcEnc (sized keyed 16) = .next (after .cbcEnc (sized keyed 16)) ∧
      exec .cbcEnc { sized keyed 16 with wob := true } = .next (after .cbcEnc { sized keyed 16 with wob := true }) :=
  ⟨ready_keyed 16 Config.inMax_ge, ready_keyed 16 Config.inMax_ge, by decide, fun _ _ => rfl, exec_after _ _,
    exec_after _ _⟩

/-! ### Witnesses: CTR -/

/-- Both commands, the empty message and the longest. -/
theorem test_witness_CtrResult :
    Ready .ctrEnc (sized keyed 0) ∧ Ready .ctrDec (sized keyed 0) ∧ Ready .ctrEnc (sized keyed Config.inMax) ∧
      Ready .ctrDec (sized keyed Config.inMax) :=
  ⟨ready_keyed 0 (Nat.zero_le _), ready_keyed 0 (Nat.zero_le _), ready_keyed _ (Nat.le_refl _),
    ready_keyed _ (Nat.le_refl _)⟩

theorem test_witness_CtrRoundTrip :
    Ready .ctrEnc (sized keyed 16) ∧ exec .ctrEnc (sized keyed 16) = .next (after .ctrEnc (sized keyed 16)) ∧
      (fedBack (sized keyed 16) (after .ctrEnc (sized keyed 16))).key = (sized keyed 16).key ∧
      (fedBack (sized keyed 16) (after .ctrEnc (sized keyed 16))).iv = (sized keyed 16).iv ∧
      (fedBack (sized keyed 16) (after .ctrEnc (sized keyed 16))).keyLen = 16 ∧
      (fedBack (sized keyed 16) (after .ctrEnc (sized keyed 16))).ivLen = 16 ∧
      (fedBack (sized keyed 16) (after .ctrEnc (sized keyed 16))).dataLen = (after .ctrEnc (sized keyed 16)).outLen ∧
      ∀ i, i < (after .ctrEnc (sized keyed 16)).outLen.toNat →
        (fedBack (sized keyed 16) (after .ctrEnc (sized keyed 16))).storeByte .inp i =
          (after .ctrEnc (sized keyed 16)).storeByte .out i :=
  ⟨ready_keyed 16 Config.inMax_ge, exec_after _ _, rfl, rfl, rfl, rfl, fedBack_dataLen _ _,
    fun i hi => fedBack_byte _ _ i hi⟩

/-- Messages of one byte that differ in a bit. -/
theorem test_witness_CtrByteIndependence :
    Ready .ctrEnc (withMessage keyed [0]) ∧ Ready .ctrEnc (withMessage keyed [1]) ∧
      (withMessage keyed [1]).key = (withMessage keyed [0]).key ∧ (withMessage keyed [1]).iv = (withMessage keyed [0]).iv ∧
      exec .ctrEnc (withMessage keyed [0]) = .next (after .ctrEnc (withMessage keyed [0])) ∧
      exec .ctrEnc (withMessage keyed [1]) = .next (after .ctrEnc (withMessage keyed [1])) ∧
      0 < (withMessage keyed [0]).dataLen.toNat ∧ 0 < (withMessage keyed [1]).dataLen.toNat := by
  have h : 1 ≤ Config.inMax := by have := Config.inMax_ge; omega
  exact ⟨⟨h, rfl, rfl⟩, ⟨h, rfl, rfl⟩, rfl, rfl, exec_after _ _, exec_after _ _, by decide, by decide⟩

/-! ### Witnesses: CCM -/

/-- The empty payload and the longest under the shortest nonce, and the longest nonce. -/
theorem test_witness_CcmEncResult :
    Ready .ccmEnc (sized (nonced 7) 0) ∧ Ready .ccmEnc (sized (nonced 7) Config.inMax) ∧ Ready .ccmEnc (nonced 13) :=
  ⟨ready_nonced 0 (Nat.zero_le _), ready_nonced _ (Nat.le_refl _), Nat.zero_le _, Nat.zero_le _, rfl, by decide,
    by decide, by decide⟩

theorem withMessage_stream (s : State) (x : List Byte) (i : Nat) :
    streamBlock (withMessage s x) i = streamBlock s i := rfl

/-- 43_ccm.md R154, n = 16 and a = 0: the tag is `E(k, B0)`. -/
theorem ccmTag_empty (s : State) (P : Nat → Byte) (h : s.aadLen.toNat = 0) :
    ccmTag s 0 P = Config.E s.key (blockAt (b0Byte s 0) 0) := by
  rw [ccmTag, aadChunks, if_pos h]
  rfl

theorem withMessage_b0 (s : State) (x : List Byte) : b0Byte (withMessage s x) 0 = b0Byte s 0 := rfl

/-- The tag of the empty payload without associated data, `E(k, B0)` (43_ccm.md R154, n = 16). -/
def emptyTag : Block16 := Config.E (nonced 7).key (blockAt (b0Byte (nonced 7) 0) 0)

/-- A ciphertext of the empty payload: a tag, encrypted with S_0. -/
def tagged (T : Block16) : State := withMessage (nonced 7) (blockXor T (streamBlock (nonced 7) 0)).toList

theorem tagged_dataLen (T : Block16) : (tagged T).dataLen.toNat = 16 := by
  simp [tagged, withMessage]

theorem tagged_tag (T : Block16) :
    blockXor (blockAt (fun i => (tagged T).storeByte .inp i) 0) (streamBlock (tagged T) 0) = T := by
  rw [tagged, withMessage_block, withMessage_stream, blockXor_cancel]

/-- What makes CCM_DEC succeed or fail on a state whose checks pass, with an empty payload. -/
def TagMatches (s : State) : Prop :=
  ccmTag s 0 (fun i => s.storeByte .inp i ^^^ ccmKeyByte s i) =
    blockXor (blockAt (fun i => s.storeByte .inp (0 + i)) 0) (streamBlock s 0)

theorem tagMatches_tagged (T : Block16) : TagMatches (tagged T) ↔ emptyTag = T := by
  unfold TagMatches
  simp only [Nat.zero_add]
  rw [tagged_tag, ccmTag_empty _ _ (show (tagged T).aadLen.toNat = 0 from rfl), tagged, withMessage_b0]
  exact Iff.rfl

theorem emptyTag_changed : emptyTag ≠ blockXor emptyTag (Vector.replicate 16 1) := by
  intro h
  have h0 : blockXor emptyTag (Vector.replicate 16 0) = emptyTag := by
    refine Vector.ext fun i hi => ?_
    rw [blockXor_getElem _ _ _ hi, Vector.getElem_replicate]
    exact BitVec.xor_zero
  exact absurd ((blockXor_right_inj _ _ _).1 (h0.trans h)) (by decide)

/-- The right tag, and a wrong one. -/
theorem test_witness_CcmDecResult :
    (Ready .ccmDec (tagged emptyTag) ∧ (tagged emptyTag).dataLen.toNat - 16 = 0 ∧ TagMatches (tagged emptyTag)) ∧
    (Ready .ccmDec (tagged (blockXor emptyTag (Vector.replicate 16 1))) ∧
      ¬ TagMatches (tagged (blockXor emptyTag (Vector.replicate 16 1)))) := by
  have hr : ∀ T, Ready .ccmDec (tagged T) := fun T => by
    have hN : (tagged T).ivLen.toNat = 7 := rfl
    have hd := tagged_dataLen T
    exact ⟨hd.trans_le Config.inMax_ge, Nat.zero_le _, rfl, by omega, by omega, by omega, by rw [hd, hN]; decide⟩
  exact ⟨⟨hr _, by rw [tagged_dataLen], (tagMatches_tagged _).2 rfl⟩, hr _,
    fun h => emptyTag_changed ((tagMatches_tagged _).1 h)⟩

/-- The hypotheses that both clauses share, for the empty payload and for the longest; the first meets the first clause
and the second, whose output no longer fits IN, the second. -/
theorem test_witness_CcmRoundTrip :
    ∀ n, n = 0 ∨ n = Config.inMax →
      Ready .ccmEnc (sized (nonced 7) n) ∧
      exec .ccmEnc (sized (nonced 7) n) = .next (after .ccmEnc (sized (nonced 7) n)) ∧
      (fedBack (sized (nonced 7) n) (after .ccmEnc (sized (nonced 7) n))).key = (sized (nonced 7) n).key ∧
      (fedBack (sized (nonced 7) n) (after .ccmEnc (sized (nonced 7) n))).keyLen = 16 ∧
      (fedBack (sized (nonced 7) n) (after .ccmEnc (sized (nonced 7) n))).ivLen = (sized (nonced 7) n).ivLen ∧
      (fedBack (sized (nonced 7) n) (after .ccmEnc (sized (nonced 7) n))).aadLen = (sized (nonced 7) n).aadLen ∧
      (∀ i, (fedBack (sized (nonced 7) n) (after .ccmEnc (sized (nonced 7) n))).storeByte .iv i =
        (sized (nonced 7) n).storeByte .iv i) ∧
      (∀ i, i < (sized (nonced 7) n).aadLen.toNat →
        (fedBack (sized (nonced 7) n) (after .ccmEnc (sized (nonced 7) n))).storeByte .aad i =
          (sized (nonced 7) n).storeByte .aad i) ∧
      (fedBack (sized (nonced 7) n) (after .ccmEnc (sized (nonced 7) n))).dataLen =
        (after .ccmEnc (sized (nonced 7) n)).outLen ∧
      (∀ i, i < (after .ccmEnc (sized (nonced 7) n)).outLen.toNat →
        (fedBack (sized (nonced 7) n) (after .ccmEnc (sized (nonced 7) n))).storeByte .inp i =
          (after .ccmEnc (sized (nonced 7) n)).storeByte .out i) ∧
      (n = 0 → (after .ccmEnc (sized (nonced 7) n)).outLen.toNat ≤ Config.inMax) ∧
      (n = Config.inMax → Config.inMax < (after .ccmEnc (sized (nonced 7) n)).outLen.toNat) := by
  intro n hn
  have h : n ≤ Config.inMax := by omega
  have hl := ccmEnc_outLen _ (ready_nonced n h)
  have hd := sized_dataLen (nonced 7) n (by have := Config.inMax_le; omega)
  have hg := Config.inMax_ge
  exact ⟨ready_nonced n h, exec_after _ _, rfl, rfl, rfl, rfl, fun _ => rfl, fun _ hi => absurd hi (Nat.not_lt_zero _),
    fedBack_dataLen _ _, fun i hi => fedBack_byte _ _ i hi, fun _ => by omega, fun _ => by omega⟩

/-- A state with one byte of a store changed. -/
def flipped (S : Store) (s : State) (j : Nat) : State := s.setStoreByte S j (~~~ s.storeByte S j)

theorem flipped_ne (b : Byte) : ~~~ b ≠ b := by
  revert b
  decide

/-- The changed byte of IN, and the others. -/
theorem flipped_inp (s : State) (j i : Nat) :
    (flipped .inp s j).storeByte .inp i = if i = j then ~~~ s.storeByte .inp j else s.storeByte .inp i := by
  have h := s.ramByte_set (Store.inp.base + j) (Store.inp.base + i) (~~~ s.storeByte .inp j)
  by_cases hi : i = j
  · rw [if_pos (by rw [hi])] at h
    rw [if_pos hi]
    exact h
  · rw [if_neg (by omega)] at h
    rw [if_neg hi]
    exact h

/-- The changed byte of AAD. -/
theorem flipped_aad (s : State) (j : Nat) : (flipped .aad s j).storeByte .aad j = ~~~ s.storeByte .aad j := by
  have h := s.ramByte_set (Store.aad.base + j) (Store.aad.base + j) (~~~ s.storeByte .aad j)
  rw [if_pos rfl] at h
  exact h

/-- A changed byte of AAD leaves IN as it was. -/
theorem flipped_aad_inp (s : State) (j i : Nat) (hi : i < 0x100000) :
    (flipped .aad s j).storeByte .inp i = s.storeByte .inp i := by
  have h := s.ramByte_set (Store.aad.base + j) (Store.inp.base + i) (~~~ s.storeByte .aad j)
  have hb : Store.aad.base = Store.inp.base + 0x100000 := rfl
  rw [if_neg (by omega)] at h
  exact h

/-- What the clauses of the statement share: s encrypts to t, and s' holds a state that CCM_DEC takes as its answer. -/
def Tampering (s s' t : State) : Prop :=
  Ready .ccmEnc s ∧ exec .ccmEnc s = .next t ∧ s'.key = s.key ∧ s'.keyLen = 16 ∧ s'.ivLen = s.ivLen ∧
    s'.aadLen = s.aadLen ∧ (∀ i, i < s.ivLen.toNat → s'.storeByte .iv i = s.storeByte .iv i) ∧
    s'.dataLen = t.outLen ∧ t.outLen.toNat ≤ Config.inMax

theorem tampering (s : State) (S : Store) (hS : S = .inp ∨ S = .aad) (j : Nat) (hr : Ready .ccmEnc s)
    (h : s.dataLen.toNat + 16 ≤ Config.inMax) :
    Tampering s (flipped S (fedBack s (after .ccmEnc s)) j) (after .ccmEnc s) := by
  have hk : s.keyLen = 16 := hr.2.2.1
  have hl := ccmEnc_outLen s hr
  have hd := fedBack_dataLen s (after .ccmEnc s)
  rcases hS with rfl | rfl <;>
    exact ⟨hr, exec_after _ _, rfl, hk, rfl, rfl, fun _ _ => rfl, hd, hl.trans_le h⟩

/-- A changed byte of the tag: the last one, of the empty payload. -/
theorem test_witness_CcmTamperDetection_tag :
    Tampering (sized (nonced 7) 0)
        (flipped .inp (fedBack (sized (nonced 7) 0) (after .ccmEnc (sized (nonced 7) 0))) 15)
        (after .ccmEnc (sized (nonced 7) 0)) ∧
      (flipped .inp (fedBack (sized (nonced 7) 0) (after .ccmEnc (sized (nonced 7) 0))) 15).storeByte .inp 15 ≠
        (after .ccmEnc (sized (nonced 7) 0)).storeByte .out 15 := by
  have hr := ready_nonced 0 (Nat.zero_le _)
  have hl : (after .ccmEnc (sized (nonced 7) 0)).outLen.toNat = 16 := ccmEnc_outLen _ hr
  refine ⟨tampering _ _ (.inl rfl) _ hr (by have := Config.inMax_ge; exact this), ?_⟩
  rw [flipped_inp, if_pos rfl, fedBack_byte _ _ 15 (by omega)]
  exact flipped_ne _

/-- A changed byte of the payload, where IN has room for a block and its tag. -/
theorem test_witness_CcmTamperDetection_payload (h : 32 ≤ Config.inMax) :
    Tampering (sized (nonced 7) 16)
        (flipped .inp (fedBack (sized (nonced 7) 16) (after .ccmEnc (sized (nonced 7) 16))) 0)
        (after .ccmEnc (sized (nonced 7) 16)) ∧
      (∀ i, i < 32 → i ≠ 0 →
        (flipped .inp (fedBack (sized (nonced 7) 16) (after .ccmEnc (sized (nonced 7) 16))) 0).storeByte .inp i =
          (after .ccmEnc (sized (nonced 7) 16)).storeByte .out i) ∧
      (flipped .inp (fedBack (sized (nonced 7) 16) (after .ccmEnc (sized (nonced 7) 16))) 0).storeByte .inp 0 ≠
        (after .ccmEnc (sized (nonced 7) 16)).storeByte .out 0 := by
  have hr := ready_nonced 16 (by omega)
  have hl : (after .ccmEnc (sized (nonced 7) 16)).outLen.toNat = 32 := ccmEnc_outLen _ hr
  refine ⟨tampering _ _ (.inl rfl) _ hr h, fun i hi h0 => ?_, ?_⟩
  · rw [flipped_inp, if_neg h0, fedBack_byte _ _ i (by omega)]
  · rw [flipped_inp, if_pos rfl, fedBack_byte _ _ 0 (by omega)]
    exact flipped_ne _

/-- IDLE with one byte of associated data and an empty payload. -/
def oneAad : State := { sized (nonced 7) 0 with aadLen := 1 }

/-- A changed byte of the associated data, where AAD has one. -/
theorem test_witness_CcmTamperDetection_aad (h : 1 ≤ Config.aadMax) :
    Tampering oneAad (flipped .aad (fedBack oneAad (after .ccmEnc oneAad)) 0) (after .ccmEnc oneAad) ∧
      (∀ i, i < 16 → (flipped .aad (fedBack oneAad (after .ccmEnc oneAad)) 0).storeByte .inp i =
        (after .ccmEnc oneAad).storeByte .out i) ∧
      (flipped .aad (fedBack oneAad (after .ccmEnc oneAad)) 0).storeByte .aad 0 ≠ oneAad.storeByte .aad 0 := by
  have h0 := ready_nonced 0 (Nat.zero_le _)
  have hr : Ready .ccmEnc oneAad := ⟨h0.1, h, h0.2.2⟩
  have hl : (after .ccmEnc oneAad).outLen.toNat = 16 := ccmEnc_outLen _ hr
  refine ⟨tampering _ _ (.inr rfl) _ hr Config.inMax_ge, fun i hi => ?_, ?_⟩
  · rw [flipped_aad_inp _ _ _ (by omega), fedBack_byte _ _ i (by omega)]
  · rw [flipped_aad, fedBack, withMessage_aad _ _ _ (by rw [State.memRead_length]; omega)]
    exact flipped_ne _

theorem test_witness_SeedBlockIsNoCounterBlock :
    7 ≤ (List.replicate 7 (0 : Byte)).length ∧ (List.replicate 13 (0 : Byte)).length ≤ 13 := by decide

/-- The longest payload of the shortest length field, and its last counter. -/
theorem test_witness_CounterBlocksAreDistinct :
    7 ≤ (List.replicate 13 (0 : Byte)).length ∧ (List.replicate 13 (0 : Byte)).length ≤ 13 ∧
      65535 < 2 ^ (8 * (15 - (List.replicate 13 (0 : Byte)).length)) ∧ 4096 ≤ (65535 + 15) / 16 ∧
      ccmCounterBlock (List.replicate 13 (0 : Byte)) 4096 = ccmCounterBlock (List.replicate 13 (0 : Byte)) 4096 :=
  ⟨by decide, by decide, by decide, by decide, rfl⟩

/-! ### Witnesses: errors -/

/-- Each check of the CBC and CTR commands at the values next to the legal ones. -/
theorem test_witness_CipherCommandChecks :
    Config.inMax < (sized keyed (Config.inMax + 1)).dataLen.toNat ∧
    (CapIn keyed ∧ { keyed with keyLen := 15 }.keyLen ≠ 16 ∧ { keyed with keyLen := 17 }.keyLen ≠ 16) ∧
    (keyed.keyLen = 16 ∧ { keyed with ivLen := 15 }.ivLen ≠ 16 ∧ { keyed with ivLen := 17 }.ivLen ≠ 16) ∧
    (CapIn (sized keyed 15) ∧ (sized keyed 15).keyLen = 16 ∧ (sized keyed 15).ivLen = 16 ∧
      (sized keyed 15).dataLen.toNat % 16 ≠ 0) := by
  have h := Config.inMax_ge
  rw [sized_beyond]
  exact ⟨by omega, ⟨Nat.zero_le _, by decide, by decide⟩, ⟨rfl, by decide, by decide⟩,
    (show 15 ≤ Config.inMax by omega), rfl, rfl, by decide⟩

/-- Each check of the CCM commands at the values next to the legal ones. -/
theorem test_witness_CcmChecks :
    Config.inMax < (sized (nonced 7) (Config.inMax + 1)).dataLen.toNat ∧
    (CapIn (nonced 7) ∧ (nonced 7).aadLen.toNat ≤ Config.aadMax ∧ { nonced 7 with keyLen := 15 }.keyLen ≠ 16) ∧
    ((nonced 7).keyLen = 16 ∧ (nonced 6).ivLen.toNat < 7 ∧ 13 < (nonced 14).ivLen.toNat) ∧
    (CapIn (sized (nonced 13) 15) ∧ (sized (nonced 13) 15).aadLen.toNat ≤ Config.aadMax ∧
      (sized (nonced 13) 15).keyLen = 16 ∧ 7 ≤ (sized (nonced 13) 15).ivLen.toNat ∧
      (sized (nonced 13) 15).ivLen.toNat ≤ 13 ∧ (sized (nonced 13) 15).dataLen.toNat < 16) := by
  have h := Config.inMax_ge
  rw [sized_beyond]
  exact ⟨by omega, ⟨Nat.zero_le _, Nat.zero_le _, by decide⟩, ⟨rfl, by decide, by decide⟩,
    (show 15 ≤ Config.inMax by omega), Nat.zero_le _, rfl, by decide, by decide, by decide⟩

/-- CAP_AAD, where AAD_LEN can exceed AAD_MAX. -/
theorem test_witness_CcmChecks_capAad (h : Config.aadMax < 65535) :
    CapIn { nonced 7 with aadLen := 65535 } ∧ Config.aadMax < { nonced 7 with aadLen := 65535 }.aadLen.toNat :=
  ⟨Nat.zero_le _, h⟩

/-- MSGLEN of CCM_ENC and of CCM_DEC, where IN can hold 65536 bytes and a tag. -/
theorem test_witness_CcmChecks_msgLen (h : 65552 ≤ Config.inMax) :
    (CapIn (sized (nonced 13) 65536) ∧ (sized (nonced 13) 65536).ivLen.toNat = 13 ∧
      2 ^ (8 * (15 - 13)) ≤ (sized (nonced 13) 65536).dataLen.toNat) ∧
    (CapIn (sized (nonced 13) 65552) ∧ 16 ≤ (sized (nonced 13) 65552).dataLen.toNat ∧
      2 ^ (8 * (15 - 13)) ≤ (sized (nonced 13) 65552).dataLen.toNat - 16) :=
  ⟨⟨(show 65536 ≤ Config.inMax by omega), rfl, by decide⟩, h, by decide, by decide⟩

/-- Any state and both commands; the least payload of CCM_ENC and of CCM_DEC that meets MSGLEN, where IN has room. -/
theorem test_witness_MsgLenNeedsThirteenByteNonce :
    exec .ccmEnc (nonced 13) = .next (after .ccmEnc (nonced 13)) ∧
    exec .ccmDec (nonced 13) = .next (after .ccmDec (nonced 13)) ∧
    (65552 ≤ Config.inMax →
      (CapIn (sized (nonced 13) 65536) ∧ (sized (nonced 13) 65536).aadLen.toNat ≤ Config.aadMax ∧
        (sized (nonced 13) 65536).keyLen = 16 ∧ (sized (nonced 13) 65536).ivLen = 13 ∧
        65535 < (sized (nonced 13) 65536).dataLen.toNat) ∧
      (CapIn (sized (nonced 13) 65552) ∧ 65535 < (sized (nonced 13) 65552).dataLen.toNat - 16)) :=
  ⟨exec_after _ _, exec_after _ _, fun h => ⟨⟨(show 65536 ≤ Config.inMax by omega), Nat.zero_le _, rfl, rfl, by decide⟩,
    h, by decide⟩⟩

/-- An illegal word, and UNPAD of the empty message. -/
theorem test_witness_ErrorsArePrecise :
    (complete (running 0x12 0 []) = .next ((running 0x12 0 []).commitError (.illegalCmd .resBits)) ∧
      ((running 0x12 0 []).commitError (.illegalCmd .resBits)).err = true) ∧
    (complete (running 2 0 []) = .next (after .unpad (running 2 0 [])) ∧
      (after .unpad (running 2 0 [])).err = true) := ⟨⟨rfl, rfl⟩, rfl, rfl⟩

/-- A success and an error. -/
theorem test_witness_ErrorCodesPerCommand :
    (complete (running 1 0 []) = .next (after .pad (running 1 0 [])) ∧ (after .pad (running 1 0 [])).err = false) ∧
    (complete (running 4 0 []) = .next (after .cbcEnc (running 4 0 [])) ∧
      (after .cbcEnc (running 4 0 [])).err = true) := ⟨⟨rfl, rfl⟩, rfl, rfl⟩

theorem test_witness_OutputFitsOut :
    exec .pad State.reset = .next (after .pad State.reset) ∧
      (exec .unpad State.reset = .next (after .unpad State.reset) ∧ (after .unpad State.reset).err = true) :=
  ⟨rfl, rfl, rfl⟩

/-- Two states with one snapshot that differ in OUT and in WOB. -/
theorem test_witness_ResultDependsOnSnapshotOnly :
    SameSnapshot keyed { keyed.writeOut [0xAA] with wob := true } ∧
      exec .ctrEnc keyed = .next (after .ctrEnc keyed) ∧
      exec .ctrEnc { keyed.writeOut [0xAA] with wob := true } =
        .next (after .ctrEnc { keyed.writeOut [0xAA] with wob := true }) := by
  have hb : ∀ a, a < Store.out.base → (keyed.writeOut [0xAA]).ramByte a = keyed.ramByte a := fun a ha => by
    have h := keyed.ramByte_setBytes Store.out.base a [0xAA]
    rw [if_neg (by omega)] at h
    exact h
  have ho : Store.out.base = Store.aad.base + 0x100000 := rfl
  have ha : Store.aad.base = Store.inp.base + 0x100000 := rfl
  have h1 := Config.inMax_le
  have h2 := Config.aadMax_le
  exact ⟨⟨rfl, rfl, rfl, rfl, rfl, rfl, fun i hi => hb _ (by omega), fun i hi => hb _ (by omega)⟩,
    exec_after _ _, exec_after _ _⟩

end Sys2Proof.Tests
end

section
/-! SUPPORT. How long a command's output is, and that two states with one snapshot give one outcome
(10_state.md R45, R47; 60_exceptions.md R176). -/

namespace Sys2Proof.Machine

/-! ### Output lengths -/

@[simp] theorem cbcEncBlocks_length (k : Key16) (chain : Block16) (ps : List Block16) :
    (cbcEncBlocks k chain ps).length = ps.length := by
  induction ps generalizing chain with
  | nil => rfl
  | cons p ps ih => simp [cbcEncBlocks, ih]

@[simp] theorem cbcDecBlocks_length (k : Key16) (chain : Block16) (cs : List Block16) :
    (cbcDecBlocks k chain cs).length = cs.length := by
  induction cs generalizing chain with
  | nil => rfl
  | cons c cs ih => simp [cbcDecBlocks, ih]

@[simp] theorem cbcEncrypt_length (k : Key16) (iv : Block16) (P : List Byte) :
    (cbcEncrypt k iv P).length = 16 * (P.length / 16) := by simp [cbcEncrypt]

@[simp] theorem cbcDecrypt_length (k : Key16) (iv : Block16) (C : List Byte) :
    (cbcDecrypt k iv C).length = 16 * (C.length / 16) := by simp [cbcDecrypt]

@[simp] theorem ctrKeystream_length (k : Key16) (m : Nat) (ctrb : Block16) : (ctrKeystream k m ctrb).length = m := by
  induction m generalizing ctrb with
  | zero => rfl
  | succ m ih => simp [ctrKeystream, ih]

@[simp] theorem ctrXcrypt_length (k : Key16) (iv : Block16) (X : List Byte) :
    (ctrXcrypt k iv X).length = X.length :=
  streamXor_length _ _ (by simp only [ctrKeystream_length, nblk]; omega)

@[simp] theorem ccmKeystream_length (k : Key16) (nonce : List Byte) (m : Nat) :
    (ccmKeystream k nonce m).length = m := by simp [ccmKeystream]

@[simp] theorem ccmCtr_length (k : Key16) (nonce X : List Byte) : (ccmCtr k nonce X).length = X.length :=
  streamXor_length _ _ (by simp only [ccmKeystream_length, nblk]; omega)

@[simp] theorem ccmSeal_length (k : Key16) (nonce P A : List Byte) :
    (ccmSeal k nonce P A).length = P.length + 16 := by simp [ccmSeal]

theorem unpad16_ok_length {x y : List Byte} (h : unpad16 x = .ok y) : y.length ≤ x.length := by
  rcases unpad16_cases x with ⟨p, _, _, _, _, _, hy⟩ | he
  · cases hy.symm.trans h
    exact List.length_take_le' _ _
  · exact absurd (he.symm.trans h) nofun

theorem ccmOpen_ok_length {k : Key16} {nonce X A y : List Byte} (h : ccmOpen k nonce X A = .ok y) :
    y.length = X.length - 16 := by
  simp only [ccmOpen] at h
  split at h <;> cases h
  simp

/-- No command's output is longer than its input and one block more: the padding or the tag. -/
theorem resultOf_ok_length {c : Instr} {s : State} {y : List Byte} (h : resultOf c s = .ok y) :
    y.length ≤ s.dataLen.toNat + 16 := by
  cases c <;> simp only [resultOf] at h
  case pad => cases h; simp only [pad16_length, State.message_length]; omega
  case unpad => have := unpad16_ok_length h; simp only [State.message_length] at this; omega
  case xor => cases h; rw [xorN_length] <;> simp [State.dataLength_eq]
  case cbcEnc => cases h; simp only [cbcEncrypt_length, pad16_length, State.message_length]; omega
  case cbcDec =>
    have := unpad16_ok_length h
    simp only [cbcDecrypt_length, State.message_length] at this; omega
  case ctrEnc => cases h; simp
  case ctrDec => cases h; simp
  case ccmEnc => cases h; simp
  case ccmDec => have := ccmOpen_ok_length h; simp only [State.message_length] at this; omega

/-- 60_exceptions.md R176: every command refuses a message that exceeds IN. -/
theorem Ready.capIn {c : Instr} {s : State} (h : Ready c s) : CapIn s := by
  cases c
  case pad => exact h
  case unpad => exact h
  all_goals exact h.1

/-- 00_scope.md R7: whatever a command outputs fits OUT. -/
theorem runOf_ok_length {c : Instr} {s : State} {y : List Byte} (h : runOf c s = .ok y) :
    y.length ≤ Config.outCap := by
  have hr : Ready c s := ready_of_ok h
  have hy := resultOf_ok_length ((runOf_ready hr).symm.trans h)
  have hn : s.dataLen.toNat ≤ Config.inMax := hr.capIn
  rw [Config.outCap_eq]; omega

/-- 60_exceptions.md R180 to R182: a command's completion is a success with its output or an error that it reports. -/
theorem exec_cases {c : Instr} {s t : State} (h : exec c s = .next t) :
    (∃ y, runOf c s = .ok y ∧ Succeeded s t y) ∨
    (∃ e, runOf c s = .error e ∧ Failed s t e.code e.info) := by
  rw [exec_eq_commit] at h
  cases h
  rcases hr : runOf c s with e | y
  · exact .inr ⟨e, rfl, State.commitError_failed s e⟩
  · exact .inl ⟨y, rfl, State.commitSuccess_succeeded s y (runOf_ok_length hr)⟩

/-! ### One snapshot, one outcome -/

theorem State.memRead_congr {s t : State} {S : Store} {n : Nat}
    (h : ∀ i, i < n → t.storeByte S i = s.storeByte S i) : t.memRead S 0 n = s.memRead S 0 n := by
  refine List.map_congr_left fun i hi => ?_
  rw [Nat.zero_add]
  exact h i (List.mem_range.1 hi)

namespace SameSnapshot

variable {s t : State} (h : SameSnapshot s t)
include h

theorem dataLength : t.dataLength = s.dataLength := congrArg BitVec.toNat h.dataLen

theorem aadLength : t.aadLength = s.aadLength := congrArg BitVec.toNat h.aadLen

theorem ivLength : t.ivLength = s.ivLength := congrArg BitVec.toNat h.ivLen

theorem keyLength : t.keyLength = s.keyLength := congrArg BitVec.toNat h.keyLen

theorem message (hn : s.dataLength ≤ Config.inMax) : t.message = s.message := by
  simp only [State.message, h.dataLength]
  exact State.memRead_congr fun i hi => h.inp i (by omega)

theorem assocData (ha : s.aadLength ≤ Config.aadMax) : t.assocData = s.assocData := by
  simp only [State.assocData, h.aadLength]
  exact State.memRead_congr fun i hi => h.aad i (by omega)

theorem xorOperand (hn : s.dataLength ≤ Config.aadMax) : t.xorOperand = s.xorOperand := by
  simp only [State.xorOperand, h.dataLength]
  exact State.memRead_congr fun i hi => h.aad i (by omega)

theorem nonce : t.nonce = s.nonce := by
  simp only [State.nonce, h.ivLength]
  exact State.memRead_congr fun i _ => congrArg (fun v : Block16 => (v[i]?).getD 0) h.iv

/-- 10_state.md R47: `Run_OP` looks at the snapshot only. The capacity checks come first, so no byte past the capacity
of IN or AAD is ever looked at. -/
theorem runOf_eq (c : Instr) : runOf c t = runOf c s := by
  have hd := h.dataLength
  have ha := h.aadLength
  by_cases hn : Config.inMax < s.dataLength
  · cases c <;>
      simp only [runOf, runPad, runUnpad, runXor, runCbcEnc, runCbcDec, runCtrEnc, runCtrDec, ctrCommand, runCcmEnc,
        runCcmDec, hd, hn, if_true]
  have hm := h.message (Nat.le_of_not_lt hn)
  cases c
  case pad => simp only [runOf, runPad, hd, hm]
  case unpad => simp only [runOf, runUnpad, hd, hm]
  case xor =>
    by_cases hx : Config.aadMax < s.dataLength
    · simp only [runOf, runXor, hd, hx, if_true]
    · simp only [runOf, runXor, hd, hm, h.xorOperand (Nat.le_of_not_lt hx)]
  case cbcEnc => simp only [runOf, runCbcEnc, hd, hm, h.keyLength, h.ivLength, h.key, h.iv]
  case cbcDec => simp only [runOf, runCbcDec, hd, hm, h.keyLength, h.ivLength, h.key, h.iv]
  case ctrEnc => simp only [runOf, runCtrEnc, ctrCommand, hd, hm, h.keyLength, h.ivLength, h.key, h.iv]
  case ctrDec => simp only [runOf, runCtrDec, ctrCommand, hd, hm, h.keyLength, h.ivLength, h.key, h.iv]
  case ccmEnc =>
    by_cases hx : Config.aadMax < s.aadLength
    · simp only [runOf, runCcmEnc, hd, ha, hx, if_true]
    · simp only [runOf, runCcmEnc, hd, ha, hm, h.keyLength, h.ivLength, h.key, h.nonce,
        h.assocData (Nat.le_of_not_lt hx)]
  case ccmDec =>
    by_cases hx : Config.aadMax < s.aadLength
    · simp only [runOf, runCcmDec, hd, ha, hx, if_true]
    · simp only [runOf, runCcmDec, hd, ha, hm, h.keyLength, h.ivLength, h.key, h.nonce,
        h.assocData (Nat.le_of_not_lt hx)]

end SameSnapshot

end Sys2Proof.Machine
end

section
/-! SUPPORT. What the bus reads and writes and what a host move does (20_memory.md R53 to R63), in the shape that the
statements about the state need: which fields a move can touch at all. -/

namespace Sys2Proof.Machine

/-! ### Bus reads -/

/-- 20_memory.md R51, R53: a read at a register's offset answers the register. -/
theorem State.busRead_reg (s : State) (r : Reg) : s.busRead (BitVec.ofNat 22 r.offset) = s.readReg r := by
  cases r <;> rfl

/-- 10_state.md R39: no lane of KEY's window reads anything but 0. -/
theorem State.laneRead_key (s : State) (o : Nat) (h : Store.key.base ≤ o) (h' : o < Store.key.base + 16) :
    s.laneRead o = 0 := by
  obtain ⟨i, rfl⟩ := Nat.exists_eq_add_of_le h
  have hi : i < Store.key.size := by simp only [Store.size]; omega
  simp [State.laneRead, locate_base_add .key i hi, Store.hostReads]

/-- 10_state.md R39: a lane that the host may read is of another store than KEY. -/
theorem State.laneRead_setKey (s : State) (k : Key16) (o : Nat) :
    State.laneRead { s with key := k } o = s.laneRead o := by
  unfold State.laneRead
  rcases locate o with _ | ⟨S, i⟩
  · rfl
  · cases S <;> rfl

/-! ### Field values as numbers -/

/-- A concatenation as a number: the upper part above the lower part's width. -/
theorem toNat_append_eq {n m : Nat} (x : BitVec n) (y : BitVec m) :
    (x ++ y).toNat = 2 ^ m * x.toNat + y.toNat := by
  rw [BitVec.toNat_append, ← Nat.shiftLeft_add_eq_or_of_lt y.isLt, Nat.shiftLeft_eq, Nat.mul_comm]

@[simp] theorem flagBit_toNat (b : Bool) : (flagBit b).toNat = b.toNat := BitVec.toNat_ofBool b

/-- 10_state.md R25 to R31: STATUS as a number. -/
theorem State.statusWord_toNat (s : State) :
    s.statusWord.toNat =
      s.busy.toNat + 2 * s.done.toNat + 4 * s.err.toNat + 8 * s.wob.toNat + 16 * s.errcode.toNat +
        256 * s.errinfo.toNat := by
  have hres : (0 : BitVec 20).toNat = 0 := rfl
  simp only [State.statusWord, toNat_append_eq, flagBit_toNat, hres]
  omega

/-! ### What a write to STATUS changes -/

/-- 20_memory.md R62: a write to STATUS changes the result fields and WOB, and nothing else. -/
theorem State.statusWrite_eq (s : State) (w : Word) :
    s.statusWrite w =
      { s with
        done := s.done && !w.getLsbD 1
        err := s.err && !w.getLsbD 1
        errcode := if w.getLsbD 1 then 0 else s.errcode
        errinfo := if w.getLsbD 1 then 0 else s.errinfo
        wob := s.wob && !w.getLsbD 3 } := by
  unfold State.statusWrite State.acknowledge State.clearResult
  rcases w.getLsbD 1 <;> rcases w.getLsbD 3 <;> simp

/-! ### The memory invariant -/

/-- The part of the invariant that speaks of memory: the canonical form, over mapped bytes only (20_memory.md R52). -/
structure MemInv (m : Memory) : Prop where
  wf : m.wf
  mapped : ∀ c ∈ m, ramMapped c.1

theorem MemInv.set {m : Memory} (h : MemInv m) {a : Nat} (ha : ramMapped a) (b : Byte) : MemInv (m.set a b) where
  wf := Memory.wf_set h.wf a b
  mapped := fun c hc => by
    rcases Memory.mem_set hc with hc | rfl
    · exact h.mapped c hc
    · exact ha

/-- The output of a command fits OUT, so its write reaches mapped bytes only. -/
theorem MemInv.setOut {m : Memory} (h : MemInv m) {y : List Byte} (hy : y.length ≤ Config.outCap) :
    MemInv (m.setBytes Store.out.base y) where
  wf := Memory.wf_setBytes h.wf _ _
  mapped := fun c hc => by
    rcases Memory.mem_setBytes hc with hc | ⟨hlo, hhi⟩
    · exact h.mapped c hc
    · exact .inr (.inr ⟨hlo, by omega⟩)

/-! ### Moves that leave the result as it is -/

/-- From `s` to `t` the result stays: BUSY, the result fields of STATUS, OUT_LEN and every byte of OUT; and memory stays
canonical. This is what every host move does but acceptance, a write to STATUS and a reset (10_state.md R43, R49). -/
structure ResultKept (s t : State) : Prop where
  busy : t.busy = s.busy
  done : t.done = s.done
  err : t.err = s.err
  errcode : t.errcode = s.errcode
  errinfo : t.errinfo = s.errinfo
  outLen : t.outLen = s.outLen
  out : ∀ i, t.storeByte .out i = s.storeByte .out i
  mem : MemInv s.mem → MemInv t.mem

theorem ResultKept.refl (s : State) : ResultKept s s := ⟨rfl, rfl, rfl, rfl, rfl, rfl, fun _ => rfl, id⟩

/-- What the result does not depend on: WOB, the length registers and the model's own fields of the host. -/
theorem ResultKept.of_update (s : State) (wob : Bool) (keyLen ivLen : BitVec 8) (dataLen : Word) (aadLen : BitVec 16)
    (host : List HostMove) (replies : List Word) (lag : Nat) :
    ResultKept s { s with
      wob := wob, keyLen := keyLen, ivLen := ivLen, dataLen := dataLen, aadLen := aadLen, host := host
      replies := replies, lag := lag } := ⟨rfl, rfl, rfl, rfl, rfl, rfl, fun _ => rfl, id⟩

theorem ResultKept.trans {s t u : State} (h : ResultKept s t) (h' : ResultKept t u) : ResultKept s u where
  busy := h'.busy.trans h.busy
  done := h'.done.trans h.done
  err := h'.err.trans h.err
  errcode := h'.errcode.trans h.errcode
  errinfo := h'.errinfo.trans h.errinfo
  outLen := h'.outLen.trans h.outLen
  out := fun i => (h'.out i).trans (h.out i)
  mem := fun hm => h'.mem (h.mem hm)

/-- OUT lies above the window of every other store. -/
theorem Store.base_add_lt_out {S : Store} {i : Nat} (hw : S.hostWrites = true) (hi : i < S.size) :
    S.base + i < Store.out.base := by
  have hsize := S.size_le
  cases S
  case out => exact absurd hw nofun
  all_goals simp only [Store.base]; omega

/-- 20_memory.md R52: a byte written to a store that the host may write is no byte of OUT. -/
theorem State.setStoreByte_resultKept (s : State) {S : Store} {i : Nat} (hw : S.hostWrites = true) (hi : i < S.size)
    (b : Byte) : ResultKept s (s.setStoreByte S i b) where
  busy := by simp
  done := by simp
  err := by simp
  errcode := by simp
  errinfo := by simp
  outLen := by simp
  out := fun j => by
    have hlt := Store.base_add_lt_out hw hi
    cases S
    case key => rfl
    case iv => rfl
    case inp => exact (s.ramByte_set _ _ b).trans (if_neg (by omega))
    case aad => exact (s.ramByte_set _ _ b).trans (if_neg (by omega))
    case out => exact absurd hw nofun
  mem := fun hm => by
    cases S
    case key => exact hm
    case iv => exact hm
    case inp => exact hm.set (.inl ⟨Nat.le_add_right _ _, Nat.add_lt_add_left hi _⟩) b
    case aad => exact hm.set (.inr (.inl ⟨Nat.le_add_right _ _, Nat.add_lt_add_left hi _⟩)) b
    case out => exact absurd hw nofun

theorem State.laneWrite_resultKept (s : State) (o : Nat) (b : Byte) : ResultKept s (s.laneWrite o b) := by
  rcases s.laneWrite_cases o b with e | ⟨S, i, hw, _, hi, e⟩ <;> rw [e]
  · exact .refl s
  · exact s.setStoreByte_resultKept hw hi b

theorem State.lanesWrite_resultKept (s : State) (o : Nat) (w : Word) : ResultKept s (s.lanesWrite o w) :=
  (((s.laneWrite_resultKept _ _).trans (State.laneWrite_resultKept _ _ _)).trans
    (State.laneWrite_resultKept _ _ _)).trans (State.laneWrite_resultKept _ _ _)

/-- 20_memory.md R54, R60 to R63: a bus write keeps the result, accepts a command, or writes STATUS. -/
theorem State.busWrite_result (s : State) (off : Offset) (w : Word) :
    ResultKept s (s.busWrite off w) ∨ s.busWrite off w = s.accept w ∨
      (alignedOffset off = Reg.status.offset ∧ s.busWrite off w = s.statusWrite w) := by
  rcases s.busWrite_cases off w with
    e | ⟨_, e⟩ | ⟨_, _, e⟩ | ⟨ho, e⟩ | ⟨_, e⟩ | ⟨_, e⟩ | ⟨_, e⟩ | ⟨_, e⟩ | ⟨_, e⟩ <;> rw [e]
  · exact .inl (.refl s)
  · exact .inl (.of_update s ..)
  · exact .inr (.inl rfl)
  · exact .inr (.inr ⟨ho, rfl⟩)
  · exact .inl (.of_update s ..)
  · exact .inl (.of_update s ..)
  · exact .inl (.of_update s ..)
  · exact .inl (.of_update s ..)
  · exact .inl (s.lanesWrite_resultKept _ w)

theorem State.takeMove_resultKept (s : State) (rest : List HostMove) : ResultKept s (s.takeMove rest) :=
  .of_update s ..

/-- 20_memory.md R58, R67: a host move keeps the result, or it is a reset pulse, or it is a write that accepts a command
or writes STATUS. -/
theorem State.hostMove_result (s : State) (m : HostMove) (rest : List HostMove) :
    ResultKept s (s.hostMove m rest) ∨
    (m = .reset ∧ s.hostMove m rest = (s.takeMove rest).resetPulse) ∨
    (∃ off w, m = .write off w ∧ s.hostMove m rest = (s.takeMove rest).accept w) ∨
    (∃ off w, m = .write off w ∧ alignedOffset off = Reg.status.offset ∧
      s.hostMove m rest = (s.takeMove rest).statusWrite w) := by
  cases m with
  | read off => exact .inl (.of_update s ..)
  | wait => exact .inl (.of_update s ..)
  | reset => exact .inr (.inl ⟨rfl, rfl⟩)
  | write off w =>
    rcases (s.takeMove rest).busWrite_result off w with h | e | ⟨ho, e⟩
    · exact .inl ((s.takeMove_resultKept rest).trans h)
    · exact .inr (.inr (.inl ⟨off, w, rfl, e⟩))
    · exact .inr (.inr (.inr ⟨off, w, rfl, ho, e⟩))

/-! ### Moves while BUSY -/

/-- From `s` to `t` the running command, its snapshot and OUT stay (10_state.md R45): everything but STATUS's result
fields and WOB and the model's own bookkeeping. -/
structure CommandHeld (s t : State) : Prop where
  busy : t.busy = s.busy
  latch : t.latch = s.latch
  keyLen : t.keyLen = s.keyLen
  ivLen : t.ivLen = s.ivLen
  dataLen : t.dataLen = s.dataLen
  aadLen : t.aadLen = s.aadLen
  outLen : t.outLen = s.outLen
  key : t.key = s.key
  iv : t.iv = s.iv
  mem : t.mem = s.mem
  epoch : t.epoch = s.epoch
  lag : t.lag = s.lag - 1

theorem CommandHeld.storeByte {s t : State} (h : CommandHeld s t) (S : Store) (i : Nat) :
    t.storeByte S i = s.storeByte S i :=
  State.storeByte_congr h.key h.iv (State.ramByte_congr h.mem h.epoch) S i

theorem CommandHeld.sameSnapshot {s t : State} (h : CommandHeld s t) : SameSnapshot s t :=
  ⟨h.keyLen, h.ivLen, h.dataLen, h.aadLen, h.key, h.iv, fun i _ => h.storeByte .inp i, fun i _ => h.storeByte .aad i⟩

/-- 20_memory.md R61, R62: while BUSY a bus write does nothing, sets WOB, or writes STATUS. -/
theorem State.busWrite_busy {s : State} (hb : s.busy = true) (off : Offset) (w : Word) :
    s.busWrite off w = s ∨ s.busWrite off w = s.dropWrite ∨ s.busWrite off w = s.statusWrite w := by
  have idle {p : Prop} (hi : s.busy = false) : p := absurd (hb.symm.trans hi) nofun
  rcases s.busWrite_cases off w with e | ⟨_, e⟩ | ⟨hi, _⟩ | ⟨_, e⟩ | ⟨hi, _⟩ | ⟨hi, _⟩ | ⟨hi, _⟩ | ⟨hi, _⟩ | ⟨hi, _⟩
  · exact .inl e
  · exact .inr (.inl e)
  · exact idle hi
  · exact .inr (.inr e)
  · exact idle hi
  · exact idle hi
  · exact idle hi
  · exact idle hi
  · exact idle hi

/-- 10_state.md R45, 70_reset_and_hazards.md R200: no host move but a reset reaches the running command. -/
theorem State.hostMove_busy {s : State} (hb : s.busy = true) {m : HostMove} (hm : m ≠ .reset) (rest : List HostMove) :
    CommandHeld s (s.hostMove m rest) := by
  cases m with
  | read off => constructor <;> rfl
  | wait => constructor <;> rfl
  | reset => exact absurd rfl hm
  | write off w =>
    have hb' : (s.takeMove rest).busy = true := hb
    simp only [State.hostMove]
    rcases State.busWrite_busy hb' off w with e | e | e <;> rw [e]
    · constructor <;> rfl
    · constructor <;> rfl
    · rw [State.statusWrite_eq]
      constructor <;> rfl

end Sys2Proof.Machine
end

section
/-! SUPPORT. The invariant of every reachable state (10_state.md R49): one lemma per thing that a step can do. -/

namespace Sys2Proof.Machine

namespace Inv

theorem memInv {s : State} (h : Inv s) : MemInv s.mem := ⟨h.memWf, h.memMapped⟩

theorem of_resultKept {s t : State} (h : Inv s) (k : ResultKept s t) : Inv t where
  busy := by rw [k.busy, k.done, k.err, k.errcode, k.errinfo, k.outLen]; exact h.busy
  err := by rw [k.done, k.err, k.errcode, k.errinfo, k.outLen]; exact h.err
  noErr := by rw [k.err, k.errcode, k.errinfo]; exact h.noErr
  outLen := by rw [k.outLen]; exact h.outLen
  memWf := (k.mem h.memInv).wf
  memMapped := (k.mem h.memInv).mapped

/-- 20_memory.md R60: acceptance clears the result, OUT_LEN with it. -/
theorem accept {s : State} (h : Inv s) (w : Word) : Inv (s.accept w) where
  busy := fun _ => by simp
  err := nofun
  noErr := fun _ => by simp
  outLen := by simp
  memWf := h.memWf
  memMapped := h.memMapped

/-- 20_memory.md R62: an acknowledge clears the result. While BUSY it was clear, and OUT_LEN 0, already. -/
theorem acknowledge {s : State} (h : Inv s) : Inv s.acknowledge where
  busy := fun hb => by
    obtain ⟨-, -, -, -, ho⟩ := h.busy hb
    simp [ho]
  err := nofun
  noErr := fun _ => by simp
  outLen := h.outLen
  memWf := h.memWf
  memMapped := h.memMapped

theorem statusWrite {s : State} (h : Inv s) (w : Word) : Inv (s.statusWrite w) := by
  have clearWob {u : State} (hu : Inv u) : Inv { u with wob := false } :=
    hu.of_resultKept (.of_update u ..)
  unfold State.statusWrite
  rcases w.getLsbD 1 <;> rcases w.getLsbD 3
  · exact h
  · exact clearWob h
  · exact h.acknowledge
  · exact clearWob h.acknowledge

/-- 60_exceptions.md R181: OUT_LEN is the length of the output, and the output stands in OUT. -/
theorem commitSuccess {s : State} (h : Inv s) {y : List Byte} (hy : y.length ≤ Config.outCap) :
    Inv (s.commitSuccess y) where
  busy := nofun
  err := nofun
  noErr := fun _ => by simp
  outLen := (s.commitSuccess_succeeded y hy).outLen ▸ hy
  memWf := (h.memInv.setOut hy).wf
  memMapped := (h.memInv.setOut hy).mapped

/-- 60_exceptions.md R170 to R175, R182: an error reports a legal pair, and OUT_LEN is 0. -/
theorem commitError {s : State} (h : Inv s) (e : CmdError) : Inv (s.commitError e) where
  busy := nofun
  err := fun _ => ⟨rfl, e.legal, rfl⟩
  noErr := nofun
  outLen := Nat.zero_le _
  memWf := h.memWf
  memMapped := h.memMapped

theorem commit_runOf {s : State} (h : Inv s) (c : Instr) : Inv (s.commit (runOf c s)) := by
  rcases hr : runOf c s with e | y
  · exact h.commitError e
  · exact h.commitSuccess (runOf_ok_length hr)

theorem reset : Inv State.reset where
  busy := nofun
  err := nofun
  noErr := fun _ => by simp
  outLen := Nat.zero_le _
  memWf := State.reset_mem_wf
  memMapped := fun _ hc => absurd hc List.not_mem_nil

/-- 70_reset_and_hazards.md R195: after a reset pulse every field that the invariant speaks of has its reset value. -/
theorem resetPulse (s : State) : Inv s.resetPulse :=
  ⟨reset.busy, reset.err, reset.noErr, reset.outLen, reset.memWf, reset.memMapped⟩

theorem hostMove {s : State} (h : Inv s) (m : HostMove) (rest : List HostMove) : Inv (s.hostMove m rest) := by
  have ht : Inv (s.takeMove rest) := h.of_resultKept (s.takeMove_resultKept rest)
  rcases s.hostMove_result m rest with k | ⟨-, e⟩ | ⟨off, w, -, e⟩ | ⟨off, w, -, -, e⟩
  · exact h.of_resultKept k
  · exact e ▸ resetPulse _
  · exact e ▸ ht.accept w
  · exact e ▸ ht.statusWrite w

end Inv

/-! ### How DONE and BUSY come to be 0 together -/

@[simp] theorem State.commit_done (s : State) (r : RunOutcome) : (s.commit r).done = true := by
  cases r <;> rfl

/-- 10_state.md R49 (d), 20_memory.md R62: only a reset and an acknowledge clear DONE with BUSY left 0. -/
theorem State.hostMove_quiet {s : State} {m : HostMove} {rest : List HostMove} (h : s.busy = true ∨ s.done = true)
    (hb : (s.hostMove m rest).busy = false) (hd : (s.hostMove m rest).done = false) :
    m = .reset ∨ ∃ off w, m = .write off w ∧ alignedOffset off = Reg.status.offset ∧ w.getLsbD 1 = true := by
  rcases s.hostMove_result m rest with k | ⟨hm, -⟩ | ⟨off, w, -, e⟩ | ⟨off, w, hm, ho, e⟩
  · rw [k.busy] at hb
    rw [k.done] at hd
    simp [hb, hd] at h
  · exact .inl hm
  · rw [e, State.accept_busy] at hb
    exact absurd hb nofun
  · rw [e, State.statusWrite_eq] at hb hd
    simp only [State.takeMove_busy] at hb
    simp only [State.takeMove_done] at hd
    refine .inr ⟨off, w, hm, ho, ?_⟩
    simpa [hb, h.resolve_left (by simp [hb])] using hd

end Sys2Proof.Machine
end

section
/-! SUPPORT. The statements about the state (10_state.md), settled. -/

open Sys2Proof Sys2Proof.Machine

namespace Sys2Proof.Proofs

/-- Settles O31, by what a step can do: a completion commits an outcome whose output fits OUT, an idle machine stays as
it is, and each host move keeps the invariant. -/
theorem stepKeepsTheInvariant : Obligations.StepKeepsTheInvariant := by
  intro s t h hs
  rcases step_cases hs with ⟨-, c, -, rfl⟩ | ⟨-, why, -, rfl⟩ | ⟨-, -, rfl⟩ | ⟨-, m, rest, -, rfl⟩
  · exact h.commit_runOf c
  · exact h.commitError _
  · exact h
  · exact h.hostMove m rest

/-- Settles O8: the host moves first, and no move but a reset reaches the running command. -/
theorem snapshotHeldWhileBusy : Obligations.SnapshotHeldWhileBusy := by
  intro s m rest hb hl hh hm
  have hstep : step s = .next (s.hostMove m rest) := by
    simp [step, State.engineTurn_eq_false (.inr hl) hh, hh]
  have held := State.hostMove_busy hb hm rest
  exact ⟨_, hstep, held.busy.trans hb, held.latch, held.sameSnapshot, held.outLen, held.storeByte .out,
    by have := held.lag; omega⟩

/-- Settles O18: the four lanes of a word in KEY's window are all of KEY, and a lane that is read is not of KEY. -/
theorem keyNeverReadsBack : Obligations.KeyNeverReadsBack := by
  refine ⟨fun s off hlo hhi => ?_, fun s k off => ?_⟩
  · have hbase : Store.key.base = 0x40 := rfl
    have haligned : alignedOffset off = off.toNat - off.toNat % 4 := rfl
    have hreg : regAt (alignedOffset off) = none := regAt_none (by omega)
    have hlane (j : Nat) (hj : j < 4) : s.laneRead (alignedOffset off + j) = 0 :=
      s.laneRead_key _ (by omega) (by omega)
    have hlane0 : s.laneRead (alignedOffset off) = 0 := hlane 0 (by omega)
    simp only [State.busRead, hreg, hlane0, hlane 1 (by omega), hlane 2 (by omega), hlane 3 (by omega)]
    rfl
  · unfold State.busRead
    rcases regAt (alignedOffset off) with _ | r
    · simp only [State.laneRead_setKey]
    · cases r <;> rfl

/-- Settles O23: acceptance and a write to STATUS leave memory alone, and every other write keeps OUT. -/
theorem hostNeverWritesOut : Obligations.HostNeverWritesOut := by
  intro s off w i
  rcases s.busWrite_result off w with k | e | ⟨-, e⟩
  · exact k.out i
  · rw [e]; rfl
  · rw [e, State.statusWrite_eq]; rfl

/-- Settles O32: a completion sets DONE, so the step is the host's, and `State.hostMove_quiet` names the move. -/
theorem quietOnlyAfterResetOrAcknowledge : Obligations.QuietOnlyAfterResetOrAcknowledge := by
  intro s t h hs hb hd
  rcases step_cases hs with ⟨-, c, -, rfl⟩ | ⟨-, why, -, rfl⟩ | ⟨-, -, rfl⟩ | ⟨-, m, rest, hh, rfl⟩
  · simp at hd
  · simp at hd
  · simp [hb, hd] at h
  · refine ⟨rest, ?_⟩
    rcases State.hostMove_quiet h hb hd with rfl | ⟨off, w, rfl, ho, hw⟩
    · exact .inl hh
    · have ho' : off.toNat - off.toNat % 4 = 4 := ho
      exact .inr ⟨off, w, hh, by omega, hw⟩

/-- Settles O60: both states have one outcome, and the outcome fixes the result fields, OUT_LEN and the output. -/
theorem resultDependsOnSnapshotOnly : Obligations.ResultDependsOnSnapshotOnly := by
  intro c s s' t t' h ht ht'
  have hr := h.runOf_eq c
  rcases exec_cases ht with ⟨y, hy, k⟩ | ⟨e, he, k⟩ <;> rcases exec_cases ht' with ⟨y', hy', k'⟩ | ⟨e', he', k'⟩
  · have hyy : y' = y := Except.ok.inj (hy'.symm.trans (hr.trans hy))
    subst hyy
    refine ⟨k'.err.trans k.err.symm, k'.errcode.trans k.errcode.symm, k'.errinfo.trans k.errinfo.symm,
      BitVec.eq_of_toNat_eq (k'.outLen.trans k.outLen.symm), fun i hi => ?_⟩
    rw [k.outLen] at hi
    exact (k'.out i hi).trans (k.out i hi).symm
  · exact absurd (he'.symm.trans (hr.trans hy)) nofun
  · exact absurd (hy'.symm.trans (hr.trans he)) nofun
  · have hee : e' = e := Except.error.inj (he'.symm.trans (hr.trans he))
    subst hee
    refine ⟨k'.err.trans k.err.symm, k'.errcode.trans k.errcode.symm, k'.errinfo.trans k.errinfo.symm,
      k'.outLen.trans k.outLen.symm, fun i hi => ?_⟩
    simp [k.outLen] at hi

/-- Settles O12: the read at 0x004 is of STATUS, and its word is a concatenation of its fields. -/
theorem statusWordLayout : Obligations.StatusWordLayout := by
  intro s
  have hread : s.busRead 4 = s.statusWord := s.busRead_reg .status
  rw [hread, s.statusWord_toNat]

/-- Settles O13: each offset is a register's, and each register's field fits the 32 bits of the bus. -/
theorem registerReadValues : Obligations.RegisterReadValues := by
  intro s
  have hin := Config.inMax_le
  have haad := Config.aadMax_le
  have width {n : Nat} (x : BitVec n) (hn : n ≤ 32) : (x.setWidth 32).toNat = x.toNat :=
    BitVec.toNat_setWidth_of_le hn
  have param (v : Nat) (hv : v < 2 ^ 32) : (BitVec.ofNat 32 v).toNat = v :=
    (BitVec.toNat_ofNat v 32).trans (Nat.mod_eq_of_lt hv)
  refine ⟨s.busRead_reg .cmd, ?_, ?_, ?_, ?_, ?_, ?_, ?_⟩
  · exact (congrArg BitVec.toNat (s.busRead_reg .keyLen)).trans (width s.keyLen (by omega))
  · exact (congrArg BitVec.toNat (s.busRead_reg .ivLen)).trans (width s.ivLen (by omega))
  · exact congrArg BitVec.toNat (s.busRead_reg .dataLen)
  · exact (congrArg BitVec.toNat (s.busRead_reg .aadLen)).trans (width s.aadLen (by omega))
  · exact congrArg BitVec.toNat (s.busRead_reg .outLen)
  · exact (congrArg BitVec.toNat (s.busRead_reg .inMaxR)).trans (param _ (by omega))
  · exact (congrArg BitVec.toNat (s.busRead_reg .aadMaxR)).trans (param _ (by omega))

/-- Settles O30: memory lists nothing and no result field is set, so every clause is met (`Inv.reset`). -/
theorem resetMeetsTheInvariant : Obligations.ResetMeetsTheInvariant := Inv.reset

end Sys2Proof.Proofs
end

section
/-! SUPPORT. What one bus transaction does at each place of the window (20_memory.md R51 to R63): an equation for a
register's offset, one for a word of the store windows, and the bytes that a word's lanes read and write. -/

namespace Sys2Proof.Machine

/-! ### Offsets -/

theorem alignedOffset_mod (off : Offset) : alignedOffset off % 4 = 0 := by unfold alignedOffset; omega

theorem alignedOffset_eq_div (off : Offset) : alignedOffset off = 4 * (off.toNat / 4) := by unfold alignedOffset; omega

/-- 20_memory.md R55: an offset that is a multiple of 4 is its own aligned offset. -/
theorem alignedOffset_ofNat {o : Nat} (hlt : o < 0x400000) (hmod : o % 4 = 0) :
    alignedOffset (BitVec.ofNat 22 o) = o := by
  have hnat : (BitVec.ofNat 22 o).toNat = o := (BitVec.toNat_ofNat o 22).trans (Nat.mod_eq_of_lt hlt)
  simp only [alignedOffset, hnat]
  omega

/-! ### Mapped and writable bytes -/

/-- 20_memory.md R52: the four ranges of mapped byte offsets, in numbers (KEY and IV stand side by side). -/
theorem locate_eq_none_iff (o : Nat) :
    locate o = none ↔
      ¬ ((0x40 ≤ o ∧ o < 0x60) ∨ (0x100000 ≤ o ∧ o < 0x100000 + Config.inMax) ∨
        (0x200000 ≤ o ∧ o < 0x200000 + Config.aadMax) ∨ (0x300000 ≤ o ∧ o < 0x300000 + Config.outCap)) := by
  have mapped (S : Store) (hlo : S.base ≤ o) (hhi : o < S.base + S.size) : locate o ≠ none := by
    obtain ⟨i, rfl⟩ := Nat.exists_eq_add_of_le hlo
    simp [locate_base_add S i (by omega)]
  constructor
  · rintro hnone (h | h | h | h)
    · rcases Nat.lt_or_ge o 0x50 with hkey | hiv
      · exact mapped .key h.1 hkey hnone
      · exact mapped .iv hiv h.2 hnone
    · exact mapped .inp h.1 h.2 hnone
    · exact mapped .aad h.1 h.2 hnone
    · exact mapped .out h.1 h.2 hnone
  · intro h
    refine locate_none fun S => ?_
    cases S <;> simp only [Store.base, Store.size] <;> omega

theorem laneWritable_base_add (S : Store) (i : Nat) (h : i < S.size) : laneWritable (S.base + i) = S.hostWrites := by
  simp [laneWritable, locate_base_add S i h]

/-- 20_memory.md R52, R54 (d): the ranges of byte offsets that the host may write, in numbers. -/
theorem laneWritable_iff (o : Nat) :
    laneWritable o = true ↔
      (0x40 ≤ o ∧ o < 0x60) ∨ (0x100000 ≤ o ∧ o < 0x100000 + Config.inMax) ∨
        (0x200000 ≤ o ∧ o < 0x200000 + Config.aadMax) := by
  have hin := Config.inMax_le
  have haad := Config.aadMax_le
  rcases e : locate o with _ | ⟨S, i⟩
  · have := (locate_eq_none_iff o).1 e
    simp only [laneWritable, e, Bool.false_eq_true, false_iff]
    omega
  · obtain ⟨rfl, hi⟩ := locate_some e
    rw [laneWritable_base_add S i hi]
    have hbase : S.base + i < S.base + S.size := by omega
    cases S
    all_goals
      simp only [Store.hostWrites, Store.base, Store.size, Bool.false_eq_true, true_iff, false_iff] at hbase ⊢
      omega

/-- Every window starts at a multiple of 4, so a word has a writable byte exactly where its first byte is writable. -/
theorem anyLaneWritable_of_aligned {o : Nat} (h : o % 4 = 0) : anyLaneWritable o = laneWritable o := by
  rw [Bool.eq_iff_iff]
  simp only [anyLaneWritable, Bool.or_eq_true, laneWritable_iff]
  omega

/-! ### Lanes as numbers -/

/-- 20_memory.md R56: lane i is bits 8i+7:8i of the word. -/
theorem lane_toNat (w : Word) (i : Nat) : (lane w i).toNat = w.toNat / 256 ^ i % 256 := by
  rw [lane, BitVec.extractLsb'_toNat, Nat.shiftRight_eq_div_pow, Nat.pow_mul]

/-- 20_memory.md R56: the lanes of the word that four bytes make are these bytes. -/
theorem fromLanes_toNat_lane (f : Nat → Byte) {i : Nat} (hi : i < 4) :
    (fromLanes (f 0) (f 1) (f 2) (f 3)).toNat / 256 ^ i % 256 = (f i).toNat := by
  simp only [fromLanes, toNat_append_eq]
  interval_cases i <;> omega

/-! ### A read of a store window -/

/-- 20_memory.md R53: from 0x24 on, lane i of a read is the byte that stands there. -/
theorem State.busRead_toNat_lane (s : State) {off : Offset} (h : 0x24 ≤ alignedOffset off) {i : Nat} (hi : i < 4) :
    (s.busRead off).toNat / 256 ^ i % 256 = (s.laneRead (alignedOffset off + i)).toNat := by
  rw [← fromLanes_toNat_lane (fun j => s.laneRead (alignedOffset off + j)) hi]
  simp only [State.busRead, regAt_none h, Nat.add_zero]

theorem State.busRead_eq_zero (s : State) {off : Offset} (h : 0x24 ≤ alignedOffset off)
    (hlane : ∀ i, i < 4 → s.laneRead (alignedOffset off + i) = 0) : s.busRead off = 0 := by
  have hlane0 : s.laneRead (alignedOffset off) = 0 := hlane 0 (by omega)
  simp only [State.busRead, regAt_none h, hlane0, hlane 1 (by omega), hlane 2 (by omega), hlane 3 (by omega)]
  rfl

theorem State.laneRead_base_add (s : State) {S : Store} (hr : S.hostReads = true) {i : Nat} (hi : i < S.size) :
    s.laneRead (S.base + i) = s.storeByte S i := by
  simp [State.laneRead, locate_base_add S i hi, hr]

theorem State.laneRead_of_locate_none (s : State) {o : Nat} (h : locate o = none) : s.laneRead o = 0 := by
  simp [State.laneRead, h]

/-- 20_memory.md R52: past the end of a store the rest of its last word is unmapped. Only AAD can end inside a word. -/
theorem locate_past_end {S : Store} {k i : Nat} (hk : 4 * k < S.size) (hi : i < 4) (hend : S.size ≤ 4 * k + i) :
    locate (S.base + (4 * k + i)) = none := by
  have hin := Config.inMax_mod
  have hout := Config.outCap_eq
  have haad := Config.aadMax_le
  cases S
  case aad =>
    simp only [Store.size] at hk hend
    rw [locate_eq_none_iff, show Store.aad.base = 0x200000 from rfl]
    have := Config.inMax_le
    omega
  all_goals
    simp only [Store.size] at hk hend
    omega

/-- 20_memory.md R53: lane i of word k of a store that the host may read. -/
theorem State.laneRead_word (s : State) {S : Store} (hr : S.hostReads = true) {k i : Nat} (hk : 4 * k < S.size)
    (hi : i < 4) :
    s.laneRead (S.base + (4 * k + i)) = if 4 * k + i < S.size then s.storeByte S (4 * k + i) else 0 := by
  split
  case isTrue h => exact s.laneRead_base_add hr h
  case isFalse h => exact s.laneRead_of_locate_none (locate_past_end hk hi (by omega))

/-! ### A write, by the place it reaches -/

@[simp] theorem State.unlessBusy_of_idle {s : State} (h : s.busy = false) (t : State) : s.unlessBusy t = t := by
  simp [State.unlessBusy, h]

@[simp] theorem State.unlessBusy_of_busy {s : State} (h : s.busy = true) (t : State) :
    s.unlessBusy t = s.dropWrite := by
  simp [State.unlessBusy, h]

/-- 20_memory.md R51, R54: a write at a register's offset writes that register. -/
theorem State.busWrite_reg (s : State) {off : Offset} {r : Reg} (h : alignedOffset off = r.offset) (w : Word) :
    s.busWrite off w = s.writeReg r w := by
  simp only [State.busWrite, h, regAt_offset]

/-- 20_memory.md R54 (d), (e): where no register stands, a write reaches the four lanes if the word has a writable
byte, and nothing otherwise. -/
theorem State.busWrite_window (s : State) {off : Offset} (h : regAt (alignedOffset off) = none) (w : Word) :
    s.busWrite off w =
      if laneWritable (alignedOffset off) then s.unlessBusy (s.lanesWrite (alignedOffset off) w) else s := by
  simp only [State.busWrite, h, anyLaneWritable_of_aligned (alignedOffset_mod off)]

/-! ### What the lanes of a write put in a store -/

theorem State.laneWrite_of_not_writable (s : State) {o : Nat} (h : laneWritable o = false) (b : Byte) :
    s.laneWrite o b = s := by
  unfold laneWritable at h
  unfold State.laneWrite
  rcases e : locate o with _ | ⟨S, i⟩
  · rfl
  · simp only [e] at h
    simp [h]

theorem State.laneWrite_base_add (s : State) {S : Store} (hw : S.hostWrites = true) {i : Nat} (hi : i < S.size)
    (b : Byte) : s.laneWrite (S.base + i) b = s.setStoreByte S i b := by
  simp [State.laneWrite, locate_base_add S i hi, hw]

/-- 20_memory.md R52, R54 (d): above KEY and IV, a writable lane is a byte of memory at its own offset. -/
theorem State.laneWrite_of_writable (s : State) {o : Nat} (ho : 0x60 ≤ o) (h : laneWritable o = true) (b : Byte) :
    s.laneWrite o b = { s with mem := s.mem.set o b } := by
  rcases (laneWritable_iff o).1 h with hr | hr | hr
  · omega
  · obtain ⟨i, rfl⟩ := Nat.exists_eq_add_of_le hr.1
    exact s.laneWrite_base_add (S := .inp) rfl (Nat.lt_of_add_lt_add_left hr.2) b
  · obtain ⟨i, rfl⟩ := Nat.exists_eq_add_of_le hr.1
    exact s.laneWrite_base_add (S := .aad) rfl (Nat.lt_of_add_lt_add_left hr.2) b

theorem State.laneWrite_eq_mem (s : State) {o : Nat} (ho : 0x60 ≤ o) (b : Byte) :
    s.laneWrite o b = { s with mem := (s.laneWrite o b).mem } := by
  rcases h : laneWritable o with _ | _
  · rw [s.laneWrite_of_not_writable h]
  · rw [s.laneWrite_of_writable ho h]

theorem State.ramByte_laneWrite (s : State) {o : Nat} (ho : 0x60 ≤ o) (b : Byte) (a : Nat) :
    (s.laneWrite o b).ramByte a = if a = o ∧ laneWritable o = true then b else s.ramByte a := by
  rcases h : laneWritable o with _ | _
  · simp [s.laneWrite_of_not_writable h]
  · simp [s.laneWrite_of_writable ho h, State.ramByte_set]

/-- 20_memory.md R54 (d): above KEY and IV, a word written changes memory only. -/
theorem State.lanesWrite_eq_mem (s : State) {o : Nat} (ho : 0x60 ≤ o) (w : Word) :
    s.lanesWrite o w = { s with mem := (s.lanesWrite o w).mem } := by
  unfold State.lanesWrite
  rw [State.laneWrite_eq_mem _ (by omega : 0x60 ≤ o + 3), State.laneWrite_eq_mem _ (by omega : 0x60 ≤ o + 2),
    State.laneWrite_eq_mem _ (by omega : 0x60 ≤ o + 1), State.laneWrite_eq_mem _ ho]

/-- 20_memory.md R54 (d), R56: above KEY and IV, each writable byte of the word takes its lane, and every other byte of
memory is as it was. -/
theorem State.ramByte_lanesWrite (s : State) {o : Nat} (ho : 0x60 ≤ o) (w : Word) (a : Nat) :
    (s.lanesWrite o w).ramByte a =
      if (o ≤ a ∧ a < o + 4) ∧ laneWritable a = true then lane w (a - o) else s.ramByte a := by
  simp only [State.lanesWrite, State.ramByte_laneWrite _ ho, State.ramByte_laneWrite _ (by omega : 0x60 ≤ o + 1),
    State.ramByte_laneWrite _ (by omega : 0x60 ≤ o + 2), State.ramByte_laneWrite _ (by omega : 0x60 ≤ o + 3)]
  by_cases ha : o ≤ a ∧ a < o + 4
  · obtain ⟨j, rfl⟩ := Nat.exists_eq_add_of_le ha.1
    have hj : j < 4 := by omega
    interval_cases j <;> simp
  · have outside (j : Nat) (hj : j < 4) : a ≠ o + j := by omega
    have outside0 : a ≠ o := outside 0 (by omega)
    simp [ha, outside0, outside 1, outside 2, outside 3]

/-- 20_memory.md R54 (d): a word whose four bytes are mapped bytes of one writable store writes these four. -/
theorem State.lanesWrite_base_add (s : State) {S : Store} (hw : S.hostWrites = true) {i : Nat} (hi : i + 3 < S.size)
    (w : Word) :
    s.lanesWrite (S.base + i) w =
      (((s.setStoreByte S i (lane w 0)).setStoreByte S (i + 1) (lane w 1)).setStoreByte S (i + 2)
        (lane w 2)).setStoreByte S (i + 3) (lane w 3) := by
  simp only [State.lanesWrite, Nat.add_assoc, State.laneWrite_base_add _ hw (by omega : i < S.size),
    State.laneWrite_base_add _ hw (by omega : i + 1 < S.size),
    State.laneWrite_base_add _ hw (by omega : i + 2 < S.size), State.laneWrite_base_add _ hw hi]

/-- The sixteen bytes of KEY or IV after word k was written. -/
def setWord (v : Vector Byte 16) (k : Nat) (w : Word) : Vector Byte 16 :=
  (((v.setIfInBounds (4 * k) (lane w 0)).setIfInBounds (4 * k + 1) (lane w 1)).setIfInBounds (4 * k + 2)
    (lane w 2)).setIfInBounds (4 * k + 3) (lane w 3)

theorem State.lanesWrite_key (s : State) {k : Nat} (hk : k < 4) (w : Word) :
    s.lanesWrite (Store.key.base + 4 * k) w = { s with key := setWord s.key k w } := by
  have hsize : 4 * k + 3 < Store.key.size := by simp only [Store.size]; omega
  rw [s.lanesWrite_base_add rfl hsize]
  simp only [State.setStoreByte, setWord]

theorem State.lanesWrite_iv (s : State) {k : Nat} (hk : k < 4) (w : Word) :
    s.lanesWrite (Store.iv.base + 4 * k) w = { s with iv := setWord s.iv k w } := by
  have hsize : 4 * k + 3 < Store.iv.size := by simp only [Store.size]; omega
  rw [s.lanesWrite_base_add rfl hsize]
  simp only [State.setStoreByte, setWord]

/-- 20_memory.md R56: byte i is replaced by lane i mod 4 where it belongs to word k. -/
theorem setWord_getElem (v : Vector Byte 16) (k : Nat) (w : Word) (i : Nat) (hi : i < 16) :
    (setWord v k w)[i] = if i / 4 = k then lane w (i % 4) else v[i] := by
  simp only [setWord, Vector.getElem_setIfInBounds]
  by_cases h : i / 4 = k
  · obtain ⟨r, hr, rfl⟩ : ∃ r < 4, i = 4 * k + r := ⟨i % 4, by omega, by omega⟩
    have hmod : (4 * k + r) % 4 = r := by omega
    rw [if_pos h]
    simp only [hmod]
    interval_cases r <;> simp
  · have outside (j : Nat) (hj : j < 4) : 4 * k + j ≠ i := by omega
    have outside0 : 4 * k ≠ i := outside 0 (by omega)
    simp [h, outside0, outside 1, outside 2, outside 3]

/-! ### Host moves -/

/-- 70_reset_and_hazards.md R203: where the next step is not the engine's, it is the host's next move. -/
theorem step_hostMove {s : State} {m : HostMove} {rest : List HostMove} (h : s.busy = false ∨ s.lag ≠ 0)
    (hh : s.host = m :: rest) : step s = .next (s.hostMove m rest) := by
  simp [step, State.engineTurn_eq_false h hh, hh]

theorem ResultKept.unlessBusy {s t : State} (h : ResultKept s t) : ResultKept s (s.unlessBusy t) := by
  rcases hb : s.busy with _ | _
  · rwa [State.unlessBusy_of_idle hb]
  · rw [State.unlessBusy_of_busy hb]
    exact .of_update s ..

/-- 20_memory.md R62: a write to STATUS that does not acknowledge changes WOB only. -/
theorem State.statusWrite_resultKept (s : State) {w : Word} (h : w.getLsbD 1 = false) :
    ResultKept s (s.statusWrite w) := by
  simp only [s.statusWrite_eq, h, Bool.not_false, Bool.and_true]
  exact .of_update s ..

/-- 20_memory.md R68: of the registers, only CMD and an acknowledge of STATUS reach the result. -/
theorem State.writeReg_resultKept (s : State) {r : Reg} {w : Word} (hcmd : r ≠ .cmd)
    (hack : r = .status → w.getLsbD 1 = false) : ResultKept s (s.writeReg r w) := by
  cases r with
  | cmd => exact absurd rfl hcmd
  | status => exact s.statusWrite_resultKept (hack rfl)
  | keyLen => exact ResultKept.unlessBusy (.of_update s ..)
  | ivLen => exact ResultKept.unlessBusy (.of_update s ..)
  | dataLen => exact ResultKept.unlessBusy (.of_update s ..)
  | aadLen => exact ResultKept.unlessBusy (.of_update s ..)
  | outLen => exact .refl s
  | inMaxR => exact .refl s
  | aadMaxR => exact .refl s

/-- 20_memory.md R68: every bus write but of CMD and an acknowledge keeps the result. -/
theorem State.busWrite_resultKept (s : State) {off : Offset} {w : Word} (hcmd : alignedOffset off ≠ Reg.cmd.offset)
    (hack : alignedOffset off = Reg.status.offset → w.getLsbD 1 = false) : ResultKept s (s.busWrite off w) := by
  rcases e : regAt (alignedOffset off) with _ | r
  · rw [s.busWrite_window e]
    split
    · exact (s.lanesWrite_resultKept _ w).unlessBusy
    · exact .refl s
  · have ho := regAt_some e
    rw [s.busWrite_reg ho]
    exact s.writeReg_resultKept (fun hr => hcmd (hr ▸ ho)) fun hr => hack (hr ▸ ho)

end Sys2Proof.Machine
end

section
/-! SUPPORT. The statements about the bus (20_memory.md), settled. -/

open Sys2Proof Sys2Proof.Machine

namespace Sys2Proof.Proofs

/-- Settles O15: the word's lanes are bytes of memory at their own offsets (`State.ramByte_lanesWrite`), and of these
offsets the writable ones are the mapped bytes of the store. -/
theorem bufferWriteLanes : Obligations.BufferWriteLanes := by
  intro s S k w hb hS hk
  have hin := Config.inMax_le
  have haad := Config.aadMax_le
  have hwritable (a : Nat) (hlo : S.base + 4 * k ≤ a) (hhi : a < S.base + 4 * k + 4) :
      laneWritable a = true ↔ a < S.base + S.size := by
    rw [laneWritable_iff]
    rcases hS with rfl | rfl <;> simp only [Store.base, Store.size] at * <;> omega
  have hbounds : 0x100000 ≤ S.base ∧ S.base + 4 * k < 0x400000 ∧ (S.base + 4 * k) % 4 = 0 := by
    rcases hS with rfl | rfl <;> simp only [Store.base, Store.size] at * <;> omega
  obtain ⟨hlow, hlt, hmod⟩ := hbounds
  have hoff := alignedOffset_ofNat hlt hmod
  have hbyte (t : State) (i : Nat) : t.storeByte S i = t.ramByte (S.base + i) := by
    rcases hS with rfl | rfl <;> rfl
  have hwrite : s.busWrite (BitVec.ofNat 22 (S.base + 4 * k)) w = s.lanesWrite (S.base + 4 * k) w := by
    rw [s.busWrite_window (regAt_none (by omega)), hoff, if_pos ((hwritable _ (by omega) (by omega)).2 (by omega)),
      State.unlessBusy_of_idle hb]
  refine ⟨_, hwrite, fun i hi hmapped => ?_, fun a ha => ?_, s.lanesWrite_eq_mem (by omega) w⟩
  · have hlane : S.base + (4 * k + i) - (S.base + 4 * k) = i := by omega
    rw [hbyte, s.ramByte_lanesWrite (by omega),
      if_pos ⟨by omega, (hwritable _ (by omega) (by omega)).2 (by omega)⟩, hlane, lane_toNat]
  · rw [s.ramByte_lanesWrite (by omega), if_neg]
    rintro ⟨⟨hlo, hhi⟩, hw⟩
    exact ha ⟨hlo, hhi, (hwritable a hlo hhi).1 hw⟩

/-- Settles O16: each lane reads the byte that stands there, and past the mapped bytes there is none. -/
theorem bufferReadLanes : Obligations.BufferReadLanes := by
  have hin := Config.inMax_le
  have haad := Config.aadMax_le
  have hmod := Config.inMax_mod
  have hcap := Config.outCap_eq
  refine ⟨fun s S k i hS hk hi => ?_, fun s off o ho hrange => ?_⟩
  · have hreads : S.hostReads = true := by rcases hS with rfl | rfl | rfl | rfl <;> rfl
    have hbounds : 0x24 ≤ S.base + 4 * k ∧ S.base + 4 * k < 0x400000 ∧ (S.base + 4 * k) % 4 = 0 := by
      rcases hS with rfl | rfl | rfl | rfl <;> simp only [Store.base, Store.size] at * <;> omega
    obtain ⟨hlow, hlt, hmul⟩ := hbounds
    have hoff := alignedOffset_ofNat hlt hmul
    rw [s.busRead_toNat_lane (hoff.symm ▸ hlow) hi, hoff, Nat.add_assoc, s.laneRead_word hreads hk hi]
    split <;> rfl
  · obtain rfl : o = alignedOffset off := ho
    have hmul := alignedOffset_mod off
    refine s.busRead_eq_zero (by omega) fun i hi => s.laneRead_of_locate_none ?_
    rw [locate_eq_none_iff]
    omega

/-- Settles O17: the word's four bytes are all mapped, so the write is `setWord` of the store. -/
theorem keyAndIvWriteLanes : Obligations.KeyAndIvWriteLanes := by
  intro s k w hb hk
  have hwrite (o : Nat) (hlo : 0x40 ≤ o) (hhi : o < 0x60) (hmod : o % 4 = 0) :
      s.busWrite (BitVec.ofNat 22 o) w = s.lanesWrite o w := by
    have hoff := alignedOffset_ofNat (by omega) hmod
    rw [s.busWrite_window (regAt_none (by omega)), hoff, if_pos ((laneWritable_iff o).2 (.inl ⟨hlo, hhi⟩)),
      State.unlessBusy_of_idle hb]
  have hbytes (v : Vector Byte 16) (i : Fin 16) :
      (setWord v k w)[i].toNat = if i.val / 4 = k then w.toNat / 256 ^ (i.val % 4) % 256 else v[i].toNat := by
    rw [Fin.getElem_fin, setWord_getElem, apply_ite BitVec.toNat, lane_toNat]
    rfl
  exact ⟨⟨_, (hwrite (0x40 + 4 * k) (by omega) (by omega) (by omega)).trans (s.lanesWrite_key hk w), hbytes s.key⟩,
    ⟨_, (hwrite (0x50 + 4 * k) (by omega) (by omega) (by omega)).trans (s.lanesWrite_iv hk w), hbytes s.iv⟩⟩

/-- Settles O19: the write is `State.accept`, and a completion on a word that decodes to no command is the error commit
of ILLEGAL_CMD. -/
theorem acceptanceEffect : Obligations.AcceptanceEffect := by
  intro s w hb
  have hwrite : s.busWrite 0 w = s.accept w :=
    (s.busWrite_reg (r := .cmd) rfl w).trans (State.unlessBusy_of_idle hb _)
  refine ⟨_, hwrite, rfl, rfl, rfl, rfl, rfl, rfl, rfl, rfl, ?_, fun _ => rfl, rfl, rfl, rfl, fun why hwhy => ?_⟩
  · exact ⟨rfl, rfl, rfl, rfl, rfl, rfl, fun _ _ => rfl, fun _ _ => rfl⟩
  · have hcomplete : complete (s.accept w) = .next ((s.accept w).commitError (.illegalCmd why)) := by
      simp only [complete, State.accept_latch, hwhy]
    exact ⟨_, hcomplete, State.commitError_failed _ _⟩

/-- Settles O20: each target is a register whose write is `unlessBusy`, or a word with a writable byte. -/
theorem writeWhileBusyIsDropped : Obligations.WriteWhileBusyIsDropped := by
  intro s off w o hb ho htarget
  obtain rfl : o = alignedOffset off := ho
  have dropped (t : State) : s.unlessBusy t = { s with wob := true } := State.unlessBusy_of_busy hb t
  rcases htarget with h | h | h | h | h | hwindow
  · exact (s.busWrite_reg (r := .cmd) h w).trans (dropped _)
  · exact (s.busWrite_reg (r := .keyLen) h w).trans (dropped _)
  · exact (s.busWrite_reg (r := .ivLen) h w).trans (dropped _)
  · exact (s.busWrite_reg (r := .dataLen) h w).trans (dropped _)
  · exact (s.busWrite_reg (r := .aadLen) h w).trans (dropped _)
  · rw [s.busWrite_window (regAt_none (by omega)), if_pos ((laneWritable_iff _).2 hwindow), dropped]

/-- Settles O22: below 0x24 the target is a read-only register, and from there on a word with no writable byte. -/
theorem ignoredWritesChangeNothing : Obligations.IgnoredWritesChangeNothing := by
  intro s off w o ho hrange
  obtain rfl : o = alignedOffset off := ho
  have hmod := alignedOffset_mod off
  have hin := Config.inMax_le
  have haad := Config.aadMax_le
  rcases Nat.lt_or_ge (alignedOffset off) 0x24 with hreg | hwindow
  · have hreadOnly : alignedOffset off = 0x018 ∨ alignedOffset off = 0x01C ∨ alignedOffset off = 0x020 := by omega
    rcases hreadOnly with h | h | h
    · exact s.busWrite_reg (r := .outLen) h w
    · exact s.busWrite_reg (r := .inMaxR) h w
    · exact s.busWrite_reg (r := .aadMaxR) h w
  · rw [s.busWrite_window (regAt_none hwindow), if_neg]
    rw [laneWritable_iff]
    omega

/-- Settles O27: the step is the host's move, and every move but the three named keeps the result. -/
theorem resultStableUntilNextCommand : Obligations.ResultStableUntilNextCommand := by
  intro s m rest hb hh hreset hwrite
  have kept : ResultKept s (s.hostMove m rest) := by
    cases m with
    | read off => exact .of_update s ..
    | wait => exact .of_update s ..
    | reset => exact absurd rfl hreset
    | write off w =>
      obtain ⟨hcmd, hack⟩ := hwrite off w rfl
      have hoff := alignedOffset_eq_div off
      refine (s.takeMove_resultKept rest).trans (State.busWrite_resultKept _ ?_ fun ho => hack ?_)
      · rw [show Reg.cmd.offset = 0 from rfl]; omega
      · rw [show Reg.status.offset = 4 from rfl] at ho; omega
  exact ⟨_, step_hostMove (.inl hb) hh, kept.busy.trans hb, kept.done, kept.err, kept.errcode, kept.errinfo,
    kept.outLen, kept.out⟩

/-- Settles O9: where the engine has no turn, the step is `State.hostMove` of the next move. -/
theorem hostTransactionTakesEffect : Obligations.HostTransactionTakesEffect :=
  fun _ _ _ h => ⟨step_hostMove h, fun _ => step_hostMove h⟩

/-- Settles O10: a transaction looks at its aligned offset only, which the two offsets share. -/
theorem busIgnoresLowAddressBits : Obligations.BusIgnoresLowAddressBits := by
  intro s off off' w h
  have hoff : alignedOffset off = alignedOffset off' := by rw [alignedOffset_eq_div, alignedOffset_eq_div, h]
  simp only [State.busRead, State.busWrite, hoff, and_self]

/-- Settles O11: inside the window the distance from BASE fits the 22 bits of an offset. -/
theorem windowIsFourMiBAtBase : Obligations.WindowIsFourMiBAtBase := by
  refine fun addr => ⟨fun hlo hhi => ⟨_, if_pos ⟨hlo, by omega⟩, ?_⟩, fun h => if_neg (by omega)⟩
  exact (BitVec.toNat_ofNat _ 22).trans (Nat.mod_eq_of_lt (by omega))

/-- Settles O14: each offset is a register's, and the field takes the low bits that its width holds. -/
theorem lengthRegisterWrites : Obligations.LengthRegisterWrites := by
  intro s w hb
  have stored (off : Offset) (r : Reg) (t : State) (ho : alignedOffset off = r.offset)
      (hr : s.writeReg r w = s.unlessBusy t) : s.busWrite off w = t := by
    rw [s.busWrite_reg ho, hr, State.unlessBusy_of_idle hb]
  exact ⟨⟨_, stored 0x008 .keyLen _ rfl rfl, BitVec.toNat_setWidth ..⟩,
    ⟨_, stored 0x00C .ivLen _ rfl rfl, BitVec.toNat_setWidth ..⟩,
    stored 0x010 .dataLen _ rfl rfl,
    ⟨_, stored 0x014 .aadLen _ rfl rfl, BitVec.toNat_setWidth ..⟩⟩

/-- Settles O21: the register at 0x004 is STATUS, whose write is `State.statusWrite` in either phase. -/
theorem statusWriteEffect : Obligations.StatusWriteEffect :=
  fun s w => (s.busWrite_reg (r := .status) rfl w).trans (s.statusWrite_eq w)

end Sys2Proof.Proofs
end

section
/-! SUPPORT. The encoding of command words and of host programs (30_encoding.md R75 to R84): the decoder by the numbers
of a word's two fields, the step on an illegal word, and the words of the lines WRB and RDB. -/

namespace Sys2Proof

/-! ### Command words -/

theorem resField_eq_zero_iff (w : Word) : resField w = 0 ↔ w.toNat / 16 = 0 := by
  have hlt := w.isLt
  have hzero : (0 : BitVec 28).toNat = 0 := rfl
  rw [← BitVec.toNat_inj, hzero, resField, BitVec.extractLsb'_toNat, Nat.shiftRight_eq_div_pow]
  omega

theorem opField_toNat (w : Word) : (opField w).toNat = w.toNat % 16 := by
  rw [opField, BitVec.extractLsb'_toNat, Nat.shiftRight_zero]

/-- 30_encoding.md R80: RES is the word above 16 and OP the word modulo 16. -/
theorem decode_eq (w : Word) :
    decode w = if w.toNat / 16 = 0 then decodeOp (w.toNat % 16) else .error .resBits := by
  simp only [decode, ne_eq, resField_eq_zero_iff, opField_toNat, ite_not]

theorem decodeOp_eq_ok_iff (n : Nat) (i : Instr) : decodeOp n = .ok i ↔ n = (opOf i).toNat := by
  constructor
  · intro h
    unfold decodeOp at h
    split at h <;> cases h <;> rfl
  · rintro rfl
    cases i <;> rfl

theorem decodeOp_reserved {n : Nat} (h : n = 0 ∨ 10 ≤ n) : decodeOp n = .error .opReserved := by
  rcases e : decodeOp n with why | i
  · unfold decodeOp at e
    split at e <;> cases e
    rfl
  · have hn := (decodeOp_eq_ok_iff n i).1 e
    have hop : 1 ≤ (opOf i).toNat ∧ (opOf i).toNat ≤ 9 := by cases i <;> decide
    omega

theorem decodeOp_assigned {n : Nat} (hlo : 1 ≤ n) (hhi : n ≤ 9) : ∃ i, decodeOp n = .ok i := by
  interval_cases n <;> exact ⟨_, rfl⟩

theorem encode_toNat (i : Instr) : (encode i).toNat = (opOf i).toNat := by
  rw [encode, Machine.toNat_append_eq]
  exact Nat.zero_add _

theorem decode_eq_ok_iff (w : Word) (i : Instr) : decode w = .ok i ↔ w.toNat = (opOf i).toNat := by
  have hop := (opOf i).isLt
  rw [decode_eq]
  split
  · rw [decodeOp_eq_ok_iff, Nat.mod_eq_of_lt (by omega)]
  · simp only [reduceCtorEq, false_iff]
    omega

theorem decode_resBits {w : Word} (h : w.toNat / 16 ≠ 0) : decode w = .error .resBits := by
  rw [decode_eq, if_neg h]

theorem decode_opReserved {w : Word} (hres : w.toNat / 16 = 0) (hop : w.toNat % 16 = 0 ∨ 10 ≤ w.toNat % 16) :
    decode w = .error .opReserved := by
  rw [decode_eq, if_pos hres, decodeOp_reserved hop]

end Sys2Proof

namespace Sys2Proof.Machine

/-! ### The completion step -/

theorem step_complete {s : State} (hb : s.busy = true) (h : s.lag = 0 ∨ s.host = []) : step s = complete s :=
  if_pos (s.engineTurn_iff.2 ⟨hb, h⟩)

/-- 60_exceptions.md R180: a word that decodes to no command completes with the cause that the decoder found. -/
theorem complete_illegal {s : State} {why : Illegal} (h : decode s.latch = .error why) :
    complete s = .next (s.commitError (.illegalCmd why)) := by
  simp only [complete, h]

/-! ### Words and their lanes -/

theorem lane_fromLanes (f : Nat → Byte) {i : Nat} (hi : i < 4) : lane (fromLanes (f 0) (f 1) (f 2) (f 3)) i = f i :=
  BitVec.eq_of_toNat_eq ((lane_toNat _ i).trans (fromLanes_toNat_lane f hi))

theorem wordLanes_fromLanes (f : Nat → Byte) :
    wordLanes (fromLanes (f 0) (f 1) (f 2) (f 3)) = [f 0, f 1, f 2, f 3] := by
  simp [wordLanes, lane_fromLanes f]

/-- 30_encoding.md R84: lane j of `w_q` is byte 4q + j of the line, 0x00 past its last byte. -/
theorem lane_wrbWord (bytes : List Byte) (q : Nat) {j : Nat} (hj : j < 4) :
    lane (wrbWord bytes q) j = bytes.getD (4 * q + j) 0 :=
  lane_fromLanes (fun j => bytes.getD (4 * q + j) 0) hj

/-- 30_encoding.md R84: the word at an offset that is a multiple of 4 stands there itself, inside the window. -/
theorem alignedOffset_wordOffset {S : Store} {o q : Nat} (ho : o % 4 = 0) (hlt : S.base + o + 4 * q < 0x400000) :
    alignedOffset (wordOffset S o q) = S.base + o + 4 * q := by
  refine alignedOffset_ofNat hlt ?_
  cases S <;> simp only [Store.base] <;> omega

theorem HostLine.wf_rdb_iff (S : Store) (o k : Nat) :
    (HostLine.rdb S o k).wf = true ↔ o % 4 = 0 ∧ S.base + o + 4 * wordsFor k ≤ 0x400000 := by
  simp [HostLine.wf]

theorem HostLine.wf_wrb_iff (S : Store) (o : Nat) (bytes : List Byte) :
    (HostLine.wrb S o bytes).wf = true ↔ o % 4 = 0 ∧ S.base + o + 4 * wordsFor bytes.length ≤ 0x400000 := by
  simp [HostLine.wf]

/-! ### The reads of RDB -/

/-- 20_memory.md R53, R56: the bytes of a word read from 0x24 on are its four lanes, in order. -/
theorem State.wordLanes_busRead (s : State) {off : Offset} (h : 0x24 ≤ alignedOffset off) :
    wordLanes (s.busRead off) =
      [s.laneRead (alignedOffset off), s.laneRead (alignedOffset off + 1), s.laneRead (alignedOffset off + 2),
        s.laneRead (alignedOffset off + 3)] := by
  simp only [State.busRead, regAt_none h]
  exact wordLanes_fromLanes fun j => s.laneRead (alignedOffset off + j)

/-- Four bytes a word, one word after another, are the bytes in order. -/
theorem flatMap_range_words (g : Nat → Byte) (n : Nat) :
    ((List.range n).flatMap fun q => [g (4 * q), g (4 * q + 1), g (4 * q + 2), g (4 * q + 3)]) =
      (List.range (4 * n)).map g := by
  induction n with
  | zero => rfl
  | succ n ih => simp [List.range_succ, ih, Nat.mul_succ, List.flatMap_append]

/-- 30_encoding.md R84: the words that cover k bytes yield the k lanes from the line's first byte on. -/
theorem State.rdbYield_eq_lanes (s : State) {S : Store} {o k : Nat} (hbase : 0x24 ≤ S.base) (ho : o % 4 = 0)
    (hwin : S.base + o + 4 * wordsFor k ≤ 0x400000) :
    rdbYield k ((List.range (wordsFor k)).map fun q => s.busRead (wordOffset S o q)) =
      (List.range k).map fun i => s.laneRead (S.base + o + i) := by
  have hword (q : Nat) (hq : q ∈ List.range (wordsFor k)) :
      wordLanes (s.busRead (wordOffset S o q)) =
        [s.laneRead (S.base + o + 4 * q), s.laneRead (S.base + o + (4 * q + 1)),
          s.laneRead (S.base + o + (4 * q + 2)), s.laneRead (S.base + o + (4 * q + 3))] := by
    have hlt := List.mem_range.1 hq
    have hoff := alignedOffset_wordOffset (S := S) (q := q) ho (by omega)
    rw [s.wordLanes_busRead (by omega), hoff]
    rfl
  have hcover : k ≤ 4 * wordsFor k := by unfold wordsFor; omega
  rw [rdbYield, List.flatMap_map, List.flatMap_congr hword, flatMap_range_words fun i => s.laneRead (S.base + o + i),
    ← List.map_take, List.take_range, Nat.min_eq_left hcover]

/-! ### The writes of WRB -/

/-- The state after the first n words of `WRB` were written (30_encoding.md R84). -/
def State.wrbWords (s : State) (S : Store) (o : Nat) (bytes : List Byte) (n : Nat) : State :=
  (List.range n).foldl (fun u q => u.busWrite (wordOffset S o q) (wrbWord bytes q)) s

theorem State.wrbWords_succ (s : State) (S : Store) (o : Nat) (bytes : List Byte) (n : Nat) :
    s.wrbWords S o bytes (n + 1) = (s.wrbWords S o bytes n).busWrite (wordOffset S o n) (wrbWord bytes n) := by
  simp [State.wrbWords, List.range_succ]

/-- 20_memory.md R54 (d), R56: a word written while IDLE over four mapped bytes of IN or AAD puts its lanes in these
four, and changes nothing else of the store and no register. -/
theorem State.busWrite_mapped_word {s : State} {S : Store} (hb : s.busy = false) (hS : S = .inp ∨ S = .aad)
    {o q : Nat} (ho : o % 4 = 0) (hmapped : o + 4 * q + 4 ≤ S.size) (w : Word) :
    s.busWrite (wordOffset S o q) w = { s with mem := (s.busWrite (wordOffset S o q) w).mem } ∧
    ∀ i, (s.busWrite (wordOffset S o q) w).storeByte S (o + i) =
      if 4 * q ≤ i ∧ i < 4 * q + 4 then lane w (i - 4 * q) else s.storeByte S (o + i) := by
  have hsize := S.size_le
  have hwindow : 0x100000 ≤ S.base ∧ S.base + S.size < 0x400000 := by
    rcases hS with rfl | rfl <;> simp only [Store.base] <;> omega
  have hoff := alignedOffset_wordOffset (S := S) (q := q) ho (by omega)
  have hwritable (i : Nat) (hi : i < S.size) : laneWritable (S.base + i) = true := by
    rw [laneWritable_base_add S i hi]
    rcases hS with rfl | rfl <;> rfl
  have hbyte (t : State) (i : Nat) : t.storeByte S i = t.ramByte (S.base + i) := by
    rcases hS with rfl | rfl <;> rfl
  have hfirst : laneWritable (S.base + o + 4 * q) = true := by
    rw [Nat.add_assoc]
    exact hwritable _ (by omega)
  have hwrite : s.busWrite (wordOffset S o q) w = s.lanesWrite (S.base + o + 4 * q) w := by
    rw [s.busWrite_window (regAt_none (by omega)), hoff, if_pos hfirst, State.unlessBusy_of_idle hb]
  rw [hwrite]
  refine ⟨s.lanesWrite_eq_mem (by omega) w, fun i => ?_⟩
  rw [hbyte, hbyte, s.ramByte_lanesWrite (by omega)]
  by_cases hi : 4 * q ≤ i ∧ i < 4 * q + 4
  · rw [if_pos ⟨by omega, hwritable _ (by omega)⟩, if_pos hi]
    congr 1
    omega
  · rw [if_neg (by omega), if_neg hi]

/-- 30_encoding.md R84: after n words of `WRB`, the first 4n bytes from `o` on are the line's, and only memory
changed. -/
theorem State.wrbWords_spec {s : State} {S : Store} {o : Nat} {bytes : List Byte} (hb : s.busy = false)
    (hS : S = .inp ∨ S = .aad) (ho : o % 4 = 0) {n : Nat} (hn : o + 4 * n ≤ S.size) :
    s.wrbWords S o bytes n = { s with mem := (s.wrbWords S o bytes n).mem } ∧
    ∀ i, i < 4 * n → (s.wrbWords S o bytes n).storeByte S (o + i) = bytes.getD i 0 := by
  induction n with
  | zero => exact ⟨rfl, fun i hi => absurd hi (Nat.not_lt_zero i)⟩
  | succ n ih =>
    obtain ⟨hmem, hbytes⟩ := ih (by omega)
    have hidle : (s.wrbWords S o bytes n).busy = false := by rw [hmem]; exact hb
    obtain ⟨hmem', hbyte⟩ := State.busWrite_mapped_word hidle hS ho (q := n) (by omega) (wrbWord bytes n)
    rw [State.wrbWords_succ]
    refine ⟨hmem'.trans (by rw [hmem]), fun i hi => ?_⟩
    rw [hbyte]
    split
    case isTrue h =>
      rw [lane_wrbWord bytes n (by omega)]
      congr 1
      omega
    case isFalse h => exact hbytes i (by omega)

end Sys2Proof.Machine
end

section
/-! SUPPORT. The statements about the encoding (30_encoding.md), settled. -/

open Sys2Proof Sys2Proof.Machine

namespace Sys2Proof.Proofs

/-- Settles O2: decoding and encoding both say that the word, as a number, is the command's OP value. -/
theorem decodedWordIsTheEncoding : Obligations.DecodedWordIsTheEncoding := by
  intro w i
  rw [decode_eq_ok_iff, ← encode_toNat, BitVec.toNat_inj]

/-- Settles O3: RES is tested first; with RES 0 the word is its OP value. -/
theorem illegalWordsAndTheirCause : Obligations.IllegalWordsAndTheirCause := by
  refine fun w => ⟨decode_resBits, decode_opReserved, fun hlo hhi => ?_⟩
  obtain ⟨i, hi⟩ := decodeOp_assigned hlo hhi
  exact ⟨i, (decode_eq_ok_iff w i).2 ((decodeOp_eq_ok_iff _ i).1 hi)⟩

/-- Settles O5: the step is the completion, which commits the error that the decoder found
(`State.commitError_failed`). -/
theorem illegalWordCompletesWithIllegalCmd : Obligations.IllegalWordCompletesWithIllegalCmd := by
  intro s hb hdue
  have completes {why : Illegal} (hwhy : decode s.latch = .error why) :
      ∃ t, step s = .next t ∧ Failed s t 5 (illegalInfo why) :=
    ⟨_, (step_complete hb hdue).trans (complete_illegal hwhy), s.commitError_failed (.illegalCmd why)⟩
  exact ⟨fun hres => completes (decode_resBits hres), fun hres hop => completes (decode_opReserved hres hop)⟩

/-- Settles O24, by induction on the words written (`State.wrbWords_spec`). -/
theorem wrbStoresItsBytes : Obligations.WrbStoresItsBytes := by
  intro s S o bytes hb hS hwf hmapped
  obtain ⟨ho, -⟩ := (HostLine.wf_wrb_iff S o bytes).1 hwf
  obtain ⟨hmem, hbytes⟩ := State.wrbWords_spec (bytes := bytes) hb hS ho hmapped
  exact ⟨_, List.foldl_map .., hbytes, hmem⟩

/-- Settles O26: the reads yield the lanes from `o` on (`State.rdbYield_eq_lanes`), and each of the first k is a mapped
byte of a store that the host may read. -/
theorem rdbYieldsTheBytes : Obligations.RdbYieldsTheBytes := by
  intro s S o k hS hwf hmapped
  obtain ⟨ho, hwin⟩ := (HostLine.wf_rdb_iff S o k).1 hwf
  have hstore : 0x24 ≤ S.base ∧ S.hostReads = true := by rcases hS with rfl | rfl | rfl | rfl <;> decide
  obtain ⟨hbase, hreads⟩ := hstore
  have hlane (i : Nat) (hi : i ∈ List.range k) : s.laneRead (S.base + o + i) = s.storeByte S (o + i) := by
    have hlt := List.mem_range.1 hi
    rw [Nat.add_assoc]
    exact s.laneRead_base_add hreads (by omega)
  rw [HostLine.expand, List.map_map]
  exact (s.rdbYield_eq_lanes hbase ho hwin).trans (List.map_congr_left hlane)

/-- Settles O1: each word is the encoding of its command. -/
theorem nineWordsDecode : Obligations.NineWordsDecode := by
  have decoded (w : Word) (i : Instr) (h : w = encode i) : decode w = .ok i := (decodedWordIsTheEncoding w i).2 h
  exact ⟨decoded _ _ rfl, decoded _ _ rfl, decoded _ _ rfl, decoded _ _ rfl, decoded _ _ rfl, decoded _ _ rfl,
    decoded _ _ rfl, decoded _ _ rfl, decoded _ _ rfl⟩

/-- Settles O25: the step is the host's WAIT move, and the word it reads is the register at 0x004. -/
theorem waitLoopsWhileBusy : Obligations.WaitLoopsWhileBusy := by
  intro s rest hturn hh
  have hread : s.busRead 4 = s.statusWord := s.busRead_reg .status
  exact ⟨_, step_hostMove hturn hh, rfl, congrArg (· :: s.replies) hread.symm⟩

end Sys2Proof.Proofs
end

section
/-! SUPPORT. How a command's outcome becomes its completion (60_exceptions.md R180 to R182), and what the XOR and the
unpadding of 40_padding_xor.md answer on every byte sequence. -/

namespace Sys2Proof.Machine

/-! ### From an outcome to the completion -/

theorem exec_succeeds {c : Instr} {s : State} {y : List Byte} (h : runOf c s = .ok y) :
    ∃ t, exec c s = .next t ∧ Succeeded s t y := by
  refine ⟨s.commitSuccess y, ?_, State.commitSuccess_succeeded s y (runOf_ok_length h)⟩
  rw [exec_eq_commit, h]
  rfl

theorem exec_fails {c : Instr} {s : State} {e : CmdError} (h : runOf c s = .error e) :
    ∃ t, exec c s = .next t ∧ Failed s t e.code e.info := by
  refine ⟨s.commitError e, ?_, State.commitError_failed s e⟩
  rw [exec_eq_commit, h]
  rfl

/-- 60_exceptions.md R177: the capacity of IN is the first check of every command. -/
theorem runOf_capIn (c : Instr) {s : State} (h : Config.inMax < s.dataLen.toNat) :
    runOf c s = .error (.length .capIn) := by
  cases c <;> exact if_pos h

theorem exec_capIn (c : Instr) {s : State} (h : Config.inMax < s.dataLen.toNat) :
    ∃ t, exec c s = .next t ∧ Failed s t 2 4 := exec_fails (runOf_capIn c h)

/-- 40_padding_xor.md R107: the second operand must fit AAD, by the message's length. -/
theorem runOf_xor_capAad {s : State} (hin : s.dataLen.toNat ≤ Config.inMax)
    (haad : Config.aadMax < s.dataLen.toNat) : runOf .xor s = .error (.length .capAad) :=
  (if_neg (Nat.not_lt.2 hin)).trans (if_pos haad)

/-! ### Byte XOR -/

theorem xorN_comm (n : Nat) (x y : List Byte) : xorN n x y = xorN n y x :=
  List.zipWith_comm_of_comm BitVec.xor_comm

/-- 40_padding_xor.md R101, byte by byte: `(x[i] ⊕ y[i]) ⊕ y[i] = x[i]`. -/
theorem xorN_cancel {n : Nat} {x y : List Byte} (hx : n ≤ x.length) (hy : n ≤ y.length) :
    xorN n (xorN n x y) y = x.take n := by
  have hxy : (xorN n x y).length = n := xorN_length n x y hx hy
  have hlength : (xorN n (xorN n x y) y).length = n := xorN_length n _ y hxy.ge hy
  refine List.ext_getElem (by rw [hlength, List.length_take, Nat.min_eq_left hx]) fun i hi _ => ?_
  have hin : i < n := by omega
  calc (xorN n (xorN n x y) y)[i]
      = (xorN n (xorN n x y) y).getD i 0 := (List.getD_eq_getElem _ 0 hi).symm
    _ = x.getD i 0 ^^^ y.getD i 0 ^^^ y.getD i 0 := by
      rw [xorN_getD n _ y i hin (by omega) (by omega), xorN_getD n x y i hin (by omega) (by omega)]
    _ = x.getD i 0 := by rw [BitVec.xor_assoc, BitVec.xor_self, BitVec.xor_zero]
    _ = (x.take n)[i] := by rw [List.getElem_take, List.getD_eq_getElem x 0 (by omega)]

/-! ### Unpadding -/

/-- `ValidPadding` looks at the n bytes only. -/
theorem ValidPadding.congr {x y : Nat → Byte} {n p : Nat} (h : ValidPadding x n p) (hxy : ∀ i, i < n → y i = x i) :
    ValidPadding y n p := by
  obtain ⟨hpos, hblock, hfits, hbytes⟩ := h
  exact ⟨hpos, hblock, hfits, fun i hlo hhi => by rw [hxy i hhi, hbytes i hlo hhi]⟩

theorem forall_mem_drop_iff (x : List Byte) (k : Nat) (P : Byte → Prop) :
    (∀ b ∈ x.drop k, P b) ↔ ∀ i, k ≤ i → i < x.length → P (x.getD i 0) := by
  constructor
  · intro h i hlo hhi
    rw [List.getD_eq_getElem x 0 hhi]
    exact h _ (List.mem_drop_iff_getElem.2 ⟨i - k, by omega, by simp only [Nat.add_sub_cancel' hlo]⟩)
  · intro h b hb
    obtain ⟨j, hj, rfl⟩ := List.mem_drop_iff_getElem.1 hb
    rw [← List.getD_eq_getElem x 0 (by omega)]
    exact h _ (by omega) (by omega)

/-- 40_padding_xor.md R103: the last byte of a well-formed padding tells its length. -/
theorem ValidPadding.lastByte_eq {x : List Byte} {p : Nat} (h : ValidPadding (x.getD · 0) x.length p) :
    lastByte x = p := by
  obtain ⟨hpos, -, hfits, hbytes⟩ := h
  exact hbytes (x.length - 1) (by omega) (by omega)

/-- 40_padding_xor.md R103: no check of `unpad16` fails on a well-formed padding. -/
theorem unpad16_of_validPadding {x : List Byte} {p : Nat} (h : ValidPadding (x.getD · 0) x.length p) :
    unpad16 x = .ok (x.take (x.length - p)) := by
  have hlast := h.lastByte_eq
  obtain ⟨hpos, hblock, hfits, hbytes⟩ := h
  have hall : ∀ b ∈ x.drop (x.length - p), b.toNat = p := (forall_mem_drop_iff x _ _).2 hbytes
  have hany : ¬ ((x.drop (x.length - p)).any fun b => b.toNat != p) = true := by simpa using hall
  rw [unpad16, hlast, if_neg (by omega), if_neg (by omega), if_neg (by omega), if_neg (by omega), if_neg hany]

/-- 40_padding_xor.md R103: a byte sequence that ends in no well-formed padding fails one of the checks. -/
theorem unpad16_of_not_validPadding {x : List Byte} (h : ∀ p, ¬ ValidPadding (x.getD · 0) x.length p) :
    unpad16 x = .error .padding := by
  rcases unpad16_cases x with ⟨p, hpos, hblock, hfits, -, hall, -⟩ | herr
  · exact absurd ⟨hpos, hblock, hfits, (forall_mem_drop_iff x _ _).1 hall⟩ (h p)
  · exact herr

/-- `ValidPadding` of the message is of the bytes of IN. -/
theorem State.validPadding_message_iff (s : State) (p : Nat) :
    ValidPadding (s.message.getD · 0) s.message.length p ↔ ValidPadding (s.storeByte .inp) s.dataLen.toNat p := by
  rw [s.message_length]
  exact ⟨fun h => h.congr fun i hi => (s.message_getD i hi).symm, fun h => h.congr s.message_getD⟩

end Sys2Proof.Machine
end

section
/-! SUPPORT. The statements about PAD, UNPAD and XOR (40_padding_xor.md), settled. -/

open Sys2Proof Sys2Proof.Machine

namespace Sys2Proof.Proofs

/-- Settles O36: XOR of bytes commutes, and the second XOR with a byte cancels the first. -/
theorem xorIsSelfInverse : Obligations.XorIsSelfInverse :=
  fun n x y hx hy => ⟨xorN_cancel hx hy, xorN_comm n x y⟩

/-- Settles O33: within IN the output is `pad16` of the message, whose bytes `pad16_getD` gives. -/
theorem padResult : Obligations.PadResult := by
  obtain ⟨hword, -⟩ := nineWordsDecode
  refine ⟨hword, fun s => ⟨fun hin => ?_, exec_capIn .pad⟩⟩
  obtain ⟨t, hexec, hdone⟩ := exec_succeeds (runOf_ready (c := .pad) (s := s) hin)
  refine ⟨t, pad16 s.message, hexec, hdone, by rw [pad16_length, s.message_length], fun i hi => ?_⟩
  rw [pad16_getD _ i hi, paddedByte, s.message_length]
  split
  case isTrue h => exact s.message_getD i h
  case isFalse => rfl

/-- Settles O34: within IN the outcome is `unpad16` of the message, which strips exactly a well-formed padding. -/
theorem unpadResult : Obligations.UnpadResult := by
  obtain ⟨-, hword, -⟩ := nineWordsDecode
  refine ⟨hword, fun s => ⟨fun hin => ?_, exec_capIn .unpad⟩⟩
  have hrun : runOf .unpad s = unpad16 s.message := runOf_ready (c := .unpad) hin
  constructor
  · intro p hp
    have hok := hrun.trans (unpad16_of_validPadding ((s.validPadding_message_iff p).2 hp))
    rw [s.message_length] at hok
    obtain ⟨t, hexec, hdone⟩ := exec_succeeds hok
    have hlength : (s.message.take (s.dataLen.toNat - p)).length = s.dataLen.toNat - p := by simp
    refine ⟨t, _, hexec, hdone, hlength, fun i hi => ?_⟩
    rw [hlength] at hi
    rw [← s.message_getD i (by omega), List.getD_eq_getElem?_getD, List.getElem?_take_of_lt hi,
      List.getD_eq_getElem?_getD]
  · intro hnone
    exact exec_fails (hrun.trans (unpad16_of_not_validPadding fun p hp =>
      hnone p ((s.validPadding_message_iff p).1 hp)))

/-- Settles O35: within both capacities the output is `xorN` of `IN[0..n)` and `AAD[0..n)`, byte by byte. -/
theorem xorResult : Obligations.XorResult := by
  obtain ⟨-, -, hword, -⟩ := nineWordsDecode
  refine ⟨hword, fun s => ⟨fun hin haad => ?_, exec_capIn .xor, fun hin haad => ?_⟩⟩
  · obtain ⟨t, hexec, hdone⟩ := exec_succeeds (runOf_ready (c := .xor) (s := s) ⟨hin, haad⟩)
    have hlength : (xorN s.dataLength s.message s.xorOperand).length = s.dataLen.toNat :=
      xorN_length _ _ _ s.message_length.ge s.xorOperand_length.ge
    refine ⟨t, _, hexec, hdone, hlength, fun i hi => ?_⟩
    rw [hlength] at hi
    rw [xorN_getD s.dataLength _ _ i hi (by simpa using hi) (by simpa using hi), s.message_getD i hi,
      s.xorOperand_getD i hi]
  · exact exec_fails (runOf_xor_capAad hin haad)

end Sys2Proof.Proofs
end

section
/-! SUPPORT. CBC by its blocks (41_cbc.md R120 to R122): the bytes of a block, what each block of the output is made
of, that decryption undoes encryption, and that the first blocks of the input fix the first blocks of the output. -/

namespace Sys2Proof.Machine

/-! ### Padding and its removal -/

/-- 40_padding_xor.md R102: what PKCS#7 appends is a well-formed padding. -/
theorem pad16_validPadding (x : List Byte) :
    ValidPadding ((pad16 x).getD · 0) (pad16 x).length (16 - x.length % 16) := by
  have hlength := pad16_length x
  refine ⟨by omega, by omega, by omega, fun i hlo hhi => ?_⟩
  simp only [pad16_getD x i hhi, if_neg (show ¬ i < x.length by omega), BitVec.toNat_ofNat]
  omega

/-- 41_cbc.md R125 (a): the padding is stripped, and before it stands the message. -/
theorem unpad16_pad16 (x : List Byte) : unpad16 (pad16 x) = .ok x := by
  have hlength := pad16_length x
  rw [unpad16_of_validPadding (pad16_validPadding x)]
  exact congrArg Except.ok (List.take_left' (by omega))

/-- 40_padding_xor.md R102: padding appends, so the message's own bytes stay. -/
theorem pad16_take {x : List Byte} {n : Nat} (h : n ≤ x.length) : (pad16 x).take n = x.take n :=
  List.take_append_of_le_length h

/-! ### Blocks by their bytes -/

theorem getD_take_of_lt (x : List Byte) {n i : Nat} (h : i < n) : (x.take n).getD i 0 = x.getD i 0 := by
  rw [List.getD_eq_getElem?_getD, List.getElem?_take_of_lt h, List.getD_eq_getElem?_getD]

theorem blockAt_getElem (f : Nat → Byte) (j i : Nat) (h : i < 16) : (blockAt f j)[i] = f (16 * j + i) := by
  simp [blockAt]

theorem blockAt_congr {f g : Nat → Byte} {j : Nat} (h : ∀ i, 16 * j ≤ i → i < 16 * j + 16 → f i = g i) :
    blockAt f j = blockAt g j := by
  ext i hi
  rw [blockAt_getElem f j i hi, blockAt_getElem g j i hi, h _ (by omega) (by omega)]

theorem blocks_getElem (x : List Byte) (j : Nat) (h : j < (blocks x).length) :
    (blocks x)[j] = blockAt (x.getD · 0) j := by
  ext i hi
  rw [blocks_getElem_getElem x j i h hi, blockAt_getElem _ j i hi]

theorem blocks_take (x : List Byte) (q : Nat) : blocks (x.take (16 * q)) = (blocks x).take q := by
  refine List.ext_getElem (by simp only [blocks_length, List.length_take]; omega) fun j hj hj' => ?_
  have hq : j < q := by rw [List.length_take] at hj'; omega
  rw [List.getElem_take, blocks_getElem _ j hj, blocks_getElem]
  exact blockAt_congr fun i _ hi => getD_take_of_lt x (by omega)

theorem unblocks_take (bs : List Block16) (q : Nat) : unblocks (bs.take q) = (unblocks bs).take (16 * q) := by
  induction bs generalizing q with
  | nil => simp
  | cons b bs ih =>
    cases q with
    | zero => rfl
    | succ q =>
      have hfirst : b.toList.length ≤ 16 * (q + 1) := by rw [Vector.length_toList]; omega
      rw [List.take_succ_cons, unblocks_cons, unblocks_cons, ih, List.take_append, List.take_of_length_le hfirst,
        Vector.length_toList, Nat.mul_succ, Nat.add_sub_cancel]

/-! ### The chaining datapath -/

/-- 41_cbc.md R120, R121: encryption XORs block j with CHAIN, which is `iv` and then the ciphertext blocks. -/
theorem cbcEncBlocks_getElem (k : Key16) (iv : Block16) (ps : List Block16) (j : Nat) (h : j < ps.length) :
    (cbcEncBlocks k iv ps)[j]'(by simpa using h) =
      Config.E k (blockXor ps[j] ((iv :: cbcEncBlocks k iv ps)[j]'(by simp; omega))) := by
  induction ps generalizing iv j with
  | nil => exact absurd h (Nat.not_lt_zero j)
  | cons p ps ih =>
    cases j with
    | zero => rfl
    | succ j => exact ih _ j (Nat.lt_of_succ_lt_succ h)

/-- 41_cbc.md R120, R122: decryption XORs block j with CHAIN, which is `iv` and then the ciphertext blocks. -/
theorem cbcDecBlocks_getElem (k : Key16) (iv : Block16) (cs : List Block16) (j : Nat) (h : j < cs.length) :
    (cbcDecBlocks k iv cs)[j]'(by simpa using h) =
      blockXor (Config.D k cs[j]) ((iv :: cs)[j]'(Nat.lt_succ_of_lt h)) := by
  induction cs generalizing iv j with
  | nil => exact absurd h (Nat.not_lt_zero j)
  | cons c cs ih =>
    cases j with
    | zero => rfl
    | succ j => exact ih _ j (Nat.lt_of_succ_lt_succ h)

/-- 41_cbc.md R122: D undoes E on each block, and both directions XOR the same CHAIN. -/
theorem cbcDecBlocks_cbcEncBlocks (k : Key16) (iv : Block16) (ps : List Block16) :
    cbcDecBlocks k iv (cbcEncBlocks k iv ps) = ps := by
  induction ps generalizing iv with
  | nil => rfl
  | cons p ps ih => rw [cbcEncBlocks, cbcDecBlocks, Config.D_E, blockXor_cancel, ih]

/-- 41_cbc.md R121: ciphertext block j depends on the plaintext blocks up to j only. -/
theorem cbcEncBlocks_take (k : Key16) (iv : Block16) (ps : List Block16) (q : Nat) :
    cbcEncBlocks k iv (ps.take q) = (cbcEncBlocks k iv ps).take q := by
  induction ps generalizing iv q with
  | nil => simp [cbcEncBlocks]
  | cons p ps ih =>
    cases q with
    | zero => rfl
    | succ q => rw [List.take_succ_cons, cbcEncBlocks, cbcEncBlocks, List.take_succ_cons, ih]

/-! ### CBC on byte sequences -/

/-- 41_cbc.md R121, over the bytes. -/
theorem blockAt_cbcEncrypt (k : Key16) (iv : Block16) (P : List Byte) {j : Nat} (h : j < P.length / 16) :
    blockAt ((cbcEncrypt k iv P).getD · 0) j =
      Config.E k (blockXor (blockAt (P.getD · 0) j)
        (if j = 0 then iv else blockAt ((cbcEncrypt k iv P).getD · 0) (j - 1))) := by
  have hblock (i : Nat) (hi : i < (cbcEncBlocks k iv (blocks P)).length) :
      blockAt ((cbcEncrypt k iv P).getD · 0) i = (cbcEncBlocks k iv (blocks P))[i] := by
    rw [cbcEncrypt, ← blocks_getElem _ i (by simpa using hi)]
    simp only [blocks_unblocks]
  have hj : j < (cbcEncBlocks k iv (blocks P)).length := by simpa using h
  rw [hblock j hj, cbcEncBlocks_getElem k iv (blocks P) j (by simpa using h), blocks_getElem, List.getElem_cons]
  split
  case isTrue => rfl
  case isFalse => rw [hblock]

/-- 41_cbc.md R122, over the bytes. -/
theorem cbcDecrypt_getD (k : Key16) (iv : Block16) (C : List Byte) {i : Nat} (h : i / 16 < C.length / 16) :
    (cbcDecrypt k iv C).getD i 0 =
      (blockXor (Config.D k (blockAt (C.getD · 0) (i / 16)))
        (if i / 16 = 0 then iv else blockAt (C.getD · 0) (i / 16 - 1))).toList.getD (i % 16) 0 := by
  rw [cbcDecrypt, unblocks_getD _ i (by simpa using h), block_toList_getD _ _ (Nat.mod_lt _ (by decide))]
  congr 1
  rw [cbcDecBlocks_getElem k iv (blocks C) (i / 16) (by simpa using h), blocks_getElem, List.getElem_cons]
  split
  case isTrue => rfl
  case isFalse => rw [blocks_getElem]

/-- 41_cbc.md R122: decryption undoes encryption of a whole number of blocks. -/
theorem cbcDecrypt_cbcEncrypt (k : Key16) (iv : Block16) {P : List Byte} (h : P.length % 16 = 0) :
    cbcDecrypt k iv (cbcEncrypt k iv P) = P := by
  rw [cbcDecrypt, cbcEncrypt, blocks_unblocks, cbcDecBlocks_cbcEncBlocks, unblocks_blocks P h]

/-- 41_cbc.md R125 (c): the first 16q bytes of the output come from the first 16q bytes of the input. -/
theorem cbcEncrypt_take (k : Key16) (iv : Block16) (P : List Byte) (q : Nat) :
    (cbcEncrypt k iv P).take (16 * q) = cbcEncrypt k iv (P.take (16 * q)) := by
  rw [cbcEncrypt, cbcEncrypt, blocks_take, cbcEncBlocks_take, unblocks_take]

/-! ### The commands -/

/-- `exec_succeeds` for the state that the completion is known to answer. -/
theorem succeeded_of_exec {c : Instr} {s t : State} {y : List Byte} (h : runOf c s = .ok y)
    (hexec : exec c s = .next t) : Succeeded s t y := by
  obtain ⟨u, hu, hdone⟩ := exec_succeeds h
  cases hexec.symm.trans hu
  exact hdone

theorem Succeeded.outLen_bytes {s t : State} {y : List Byte} (h : Succeeded s t y) {i : Nat}
    (hi : i < t.outLen.toNat) : t.storeByte .out i = y.getD i 0 := h.out i (h.outLen ▸ hi)

/-- The message is the byte sequence that IN holds up to DATA_LEN. -/
theorem State.message_eq {s : State} {x : List Byte} (hn : s.dataLen.toNat = x.length)
    (hx : ∀ i, i < x.length → s.storeByte .inp i = x.getD i 0) : s.message = x := by
  refine List.ext_getElem (s.message_length.trans hn) fun i hi hi' => ?_
  rw [← List.getD_eq_getElem _ 0 hi, ← List.getD_eq_getElem _ 0 hi', s.message_getD i (hn ▸ hi'), hx i hi']

theorem State.message_take (s : State) {n : Nat} (h : n ≤ s.dataLen.toNat) :
    s.message.take n = s.memRead .inp 0 n := by
  rw [State.message, State.memRead, ← List.map_take, List.take_range, s.dataLength_eq, Nat.min_eq_left h,
    State.memRead]

/-- 40_padding_xor.md R105, 30_encoding.md R85: the bytes of the padded message. -/
theorem State.pad16_message_getD (s : State) {i : Nat} (h : i < 16 * (s.dataLen.toNat / 16 + 1)) :
    (pad16 s.message).getD i 0 = paddedByte s i := by
  rw [pad16_getD _ i (by simpa using h), paddedByte, s.message_length]
  split
  case isTrue hin => exact s.message_getD i hin
  case isFalse => rfl

/-- 41_cbc.md R122, R124: the bytes that CBC_DEC unpads. -/
theorem State.cbcDecrypt_message_getD {s : State} (haligned : s.dataLen.toNat % 16 = 0) {i : Nat}
    (h : i < s.dataLen.toNat) : (cbcDecrypt s.key s.iv s.message).getD i 0 = cbcPlainByte s i := by
  have hblock (j : Nat) (hj : j ≤ i / 16) :
      blockAt (s.message.getD · 0) j = blockAt (s.storeByte .inp) j :=
    blockAt_congr fun b _ hb => s.message_getD b (by omega)
  rw [cbcDecrypt_getD _ _ _ (by rw [s.message_length]; omega), hblock _ le_rfl, hblock _ (Nat.sub_le _ 1), cbcPlainByte]

/-- 40_padding_xor.md R103: a command whose result is `unpad16` of n bytes strips a well-formed padding, and ends in
PADDING where there is none. -/
theorem exec_unpad16 {c : Instr} {s : State} {x : List Byte} {f : Nat → Byte} {n : Nat}
    (hrun : runOf c s = unpad16 x) (hn : x.length = n) (hx : ∀ i, i < n → x.getD i 0 = f i) :
    (∀ p, ValidPadding f n p →
      ∃ t y, exec c s = .next t ∧ Succeeded s t y ∧ y.length = n - p ∧ ∀ i, i < y.length → y.getD i 0 = f i) ∧
    ((∀ p, ¬ ValidPadding f n p) → ∃ t, exec c s = .next t ∧ Failed s t 3 0) := by
  subst hn
  constructor
  · intro p hp
    obtain ⟨t, hexec, hdone⟩ := exec_succeeds (hrun.trans (unpad16_of_validPadding (hp.congr hx)))
    have hlength : (x.take (x.length - p)).length = x.length - p := by simp
    refine ⟨t, _, hexec, hdone, hlength, fun i hi => ?_⟩
    rw [hlength] at hi
    rw [getD_take_of_lt x hi, hx i (by omega)]
  · intro hnone
    exact exec_fails (hrun.trans (unpad16_of_not_validPadding fun p hp =>
      hnone p (hp.congr fun i hi => (hx i hi).symm)))

end Sys2Proof.Machine
end

section
/-! SUPPORT. The statements about CBC (41_cbc.md), settled. -/

open Sys2Proof Sys2Proof.Machine

namespace Sys2Proof.Proofs

/-- Settles O37: what `pad16` appends is well formed, so exactly that is stripped. -/
theorem unpadUndoesPad : Obligations.UnpadUndoesPad := unpad16_pad16

/-- Settles O38: the output is `cbcEncrypt` of the padded message, whose blocks `blockAt_cbcEncrypt` gives. -/
theorem cbcEncResult : Obligations.CbcEncResult := by
  intro s hready
  obtain ⟨t, hexec, hdone⟩ := exec_succeeds (runOf_ready hready)
  have hpadded : (pad16 s.message).length = 16 * (s.dataLen.toNat / 16 + 1) := by simp
  refine ⟨t, _, hexec, hdone, by rw [cbcEncrypt_length, hpadded]; omega, fun j hj => ?_⟩
  have hblock : blockAt (paddedByte s) j = blockAt ((pad16 s.message).getD · 0) j :=
    blockAt_congr fun i _ hi => (s.pad16_message_getD (by omega)).symm
  rw [hblock]
  exact blockAt_cbcEncrypt s.key s.iv (pad16 s.message) (by omega)

/-- Settles O39: the outcome is `unpad16` of the decrypted message, whose bytes are `cbcPlainByte`. -/
theorem cbcDecResult : Obligations.CbcDecResult := by
  intro s hready
  have ⟨_, _, _, haligned⟩ := hready
  have hlength : (cbcDecrypt s.key s.iv s.message).length = s.dataLen.toNat := by
    rw [cbcDecrypt_length, s.message_length]; omega
  exact exec_unpad16 (runOf_ready hready) hlength fun i hi => State.cbcDecrypt_message_getD haligned hi

/-- Settles O40, by induction on the blocks (`cbcDecBlocks_cbcEncBlocks`). -/
theorem cbcBlocksRoundTrip : Obligations.CbcBlocksRoundTrip := cbcDecBlocks_cbcEncBlocks

/-- Settles O41: the second state's message is the ciphertext, which decrypts to the padded message; beyond IN the
capacity check comes first. -/
theorem cbcRoundTrip : Obligations.CbcRoundTrip := by
  intro s s' t hready hexec hkey hiv hkeyLen hivLen hdataLen hin
  refine ⟨fun hfits => ?_, fun hover => exec_capIn .cbcDec (hdataLen ▸ hover)⟩
  have hdone : Succeeded s t (cbcEncrypt s.key s.iv (pad16 s.message)) :=
    succeeded_of_exec (runOf_ready hready) hexec
  have hmessage : s'.message = cbcEncrypt s.key s.iv (pad16 s.message) :=
    State.message_eq (hdataLen ▸ hdone.outLen) fun i hi =>
      have hlt : i < t.outLen.toNat := hdone.outLen ▸ hi
      (hin i hlt).trans (hdone.outLen_bytes hlt)
  have haligned : s'.dataLen.toNat % 16 = 0 := by
    rw [hdataLen, hdone.outLen, cbcEncrypt_length, Nat.mul_mod_right]
  have hready' : Ready .cbcDec s' := ⟨by rwa [CapIn, hdataLen], hkeyLen, hivLen, haligned⟩
  have hrun : runOf .cbcDec s' = .ok s.message :=
    calc runOf .cbcDec s'
        = unpad16 (cbcDecrypt s'.key s'.iv s'.message) := runOf_ready hready'
      _ = unpad16 (pad16 s.message) := by
        rw [hkey, hiv, hmessage, cbcDecrypt_cbcEncrypt _ _ (by rw [pad16_length, Nat.mul_mod_right])]
      _ = .ok s.message := unpad16_pad16 _
  obtain ⟨t', hexec', hdone'⟩ := exec_succeeds hrun
  exact ⟨t', _, hexec', hdone', s.message_length, fun i hi => s.message_getD i (s.message_length ▸ hi)⟩

/-- Settles O42: the first 16q bytes of each output are CBC of the first 16q bytes of its message
(`cbcEncrypt_take`). -/
theorem cbcCommonPrefix : Obligations.CbcCommonPrefix := by
  intro s s' t t' q hready hready' hkey hiv hn hn' hshared hexec hexec' i hi
  have output {u v : State} (hu : Ready .cbcEnc u) (hq : 16 * q ≤ u.dataLen.toNat) (huv : exec .cbcEnc u = .next v) :
      v.storeByte .out i = (cbcEncrypt u.key u.iv (u.message.take (16 * q))).getD i 0 := by
    have hdone : Succeeded u v (cbcEncrypt u.key u.iv (pad16 u.message)) := succeeded_of_exec (runOf_ready hu) huv
    rw [hdone.out i (by rw [cbcEncrypt_length, pad16_length, u.message_length]; omega), ← getD_take_of_lt _ hi,
      cbcEncrypt_take, pad16_take (by rwa [u.message_length])]
  have hfirst : s'.message.take (16 * q) = s.message.take (16 * q) := by
    rw [s'.message_take hn', s.message_take hn, State.memRead_congr hshared]
  rw [output hready' hn' hexec', output hready hn hexec, hkey, hiv, hfirst]

end Sys2Proof.Proofs
end

section
/-! SUPPORT. CTR by its bytes (42_ctr.md R130 to R132): big-endian integers, the counter blocks, the keystream, and
that the keystream's XOR undoes itself. -/

namespace Sys2Proof.Machine

/-! ### Big-endian integers -/

theorem ofNat_mod_256 (v : Nat) : BitVec.ofNat 8 (v % 256) = BitVec.ofNat 8 v :=
  BitVec.eq_of_toNat_eq (Nat.mod_mod v 256)

/-- 00_scope.md R13: `be_L` keeps a number's last L base-256 digits only. -/
theorem beBytes_add_pow_mul (L v c : Nat) : beBytes L (v + 256 ^ L * c) = beBytes L v := by
  induction L generalizing c with
  | zero => rfl
  | succ L ih =>
    have hshift : v + 256 ^ (L + 1) * c = v + 256 ^ L * (256 * c) := by rw [Nat.pow_succ, Nat.mul_assoc]
    rw [beBytes, beBytes, hshift, ih, Nat.add_mul_div_left _ _ (Nat.pow_pos (by decide)), ← ofNat_mod_256,
      Nat.add_mul_mod_self_left, ofNat_mod_256]

theorem beBytes_mod (L v : Nat) : beBytes L (v % 256 ^ L) = beBytes L v := by
  rw [← beBytes_add_pow_mul L (v % 256 ^ L) (v / 256 ^ L), Nat.mod_add_div]

theorem foldl_intBe (x : List Byte) (acc : Nat) :
    x.foldl (fun acc b => acc * 256 + b.toNat) acc = acc * 256 ^ x.length + intBe x := by
  induction x generalizing acc with
  | nil => simp [intBe]
  | cons b x ih =>
    have hcons : intBe (b :: x) = (0 * 256 + b.toNat) * 256 ^ x.length + intBe x := ih _
    rw [List.foldl_cons, ih, hcons, List.length_cons]
    ring

theorem intBe_cons (b : Byte) (x : List Byte) : intBe (b :: x) = b.toNat * 256 ^ x.length + intBe x := by
  rw [intBe, List.foldl_cons, foldl_intBe, Nat.zero_mul, Nat.zero_add]

theorem intBe_lt (x : List Byte) : intBe x < 256 ^ x.length := by
  induction x with
  | nil => decide
  | cons b x ih =>
    have hb : (b.toNat + 1) * 256 ^ x.length ≤ 256 * 256 ^ x.length := Nat.mul_le_mul_right _ b.isLt
    rw [intBe_cons, List.length_cons, Nat.pow_succ]
    linarith

/-- 00_scope.md R13: the number of `be_L(v)` is v modulo `256^L`. -/
theorem intBe_beBytes (L v : Nat) : intBe (beBytes L v) = v % 256 ^ L := by
  induction L with
  | zero => rw [pow_zero, Nat.mod_one]; rfl
  | succ L ih =>
    have hsplit : v % 256 ^ (L + 1) = v % 256 ^ L + 256 ^ L * (v / 256 ^ L % 256) := Nat.mod_mul
    rw [beBytes, intBe_cons, ih, beBytes_length, BitVec.toNat_ofNat, hsplit, Nat.mul_comm, Nat.add_comm]

/-- 00_scope.md R13: `be` undoes `int_be`. -/
theorem beBytes_intBe (x : List Byte) : beBytes x.length (intBe x) = x := by
  induction x with
  | nil => rfl
  | cons b x ih =>
    have hhead : (b.toNat * 256 ^ x.length + intBe x) / 256 ^ x.length = b.toNat := by
      rw [Nat.mul_comm, Nat.mul_add_div (Nat.pow_pos (by decide)), Nat.div_eq_of_lt (intBe_lt x), Nat.add_zero]
    rw [List.length_cons, intBe_cons, beBytes, hhead, BitVec.ofNat_toNat, BitVec.setWidth_eq, Nat.add_comm,
      Nat.mul_comm, beBytes_add_pow_mul, ih]

/-! ### The counter -/

/-- 42_ctr.md R130: the loop leaves the bytes of `int_be + 1`, and its carry is what they do not hold. -/
theorem ctrIncLoop_eq (x : List Byte) :
    ctrIncLoop x = ((intBe x + 1) / 256 ^ x.length, beBytes x.length (intBe x + 1)) := by
  induction x with
  | nil => rfl
  | cons b x ih =>
    have hsum : (intBe (b :: x) + 1) / 256 ^ x.length = b.toNat + (intBe x + 1) / 256 ^ x.length := by
      rw [intBe_cons, Nat.add_assoc, Nat.mul_comm, Nat.mul_add_div (Nat.pow_pos (by decide))]
    have htail : beBytes x.length (intBe (b :: x) + 1) = beBytes x.length (intBe x + 1) := by
      rw [intBe_cons, Nat.add_assoc, Nat.add_comm, Nat.mul_comm, beBytes_add_pow_mul]
    rw [List.length_cons, Nat.pow_succ, ← Nat.div_div_eq_div_mul, beBytes, hsum, htail, ctrIncLoop, ih]
    simp only [ofNat_mod_256]

theorem blockOf_toList_of_length {x : List Byte} (h : x.length = 16) : (blockOf x).toList = x := by
  refine List.ext_getElem (by simp [h]) fun i hi hi' => ?_
  rw [Vector.getElem_toList, blockOf_getElem x i (h ▸ hi'), List.getD_eq_getElem x 0 hi']

/-- 42_ctr.md R131: `be_16` drops what exceeds 2^128 by itself. -/
theorem counterAt_eq (b : Block16) (j : Nat) : counterAt b j = blockOf (beBytes 16 (intBe b.toList + j)) := by
  rw [← beBytes_mod]
  ext i hi
  rw [blockOf_getElem _ i hi, beBytes_getD _ _ i hi]
  simp [counterAt, beByte]

@[simp] theorem counterAt_zero (b : Block16) : counterAt b 0 = b := by
  have hbytes := beBytes_intBe b.toList
  rw [Vector.length_toList] at hbytes
  rw [counterAt_eq, Nat.add_zero, hbytes, blockOf_toList]

/-- 42_ctr.md R130: the carry out of byte 0 is discarded, so the increment is the addition of 1. -/
theorem ctrInc_eq_counterAt (b : Block16) : ctrInc b = counterAt b 1 := by
  rw [ctrInc, ctrIncLoop_eq, counterAt_eq, Vector.length_toList]

/-- 42_ctr.md R131: counting on from a counter block. -/
theorem counterAt_counterAt (b : Block16) (i j : Nat) : counterAt (counterAt b i) j = counterAt b (i + j) := by
  rw [counterAt_eq (counterAt b i), counterAt_eq b i, counterAt_eq b (i + j),
    blockOf_toList_of_length (beBytes_length _ _), intBe_beBytes, ← beBytes_mod, Nat.mod_add_mod, beBytes_mod,
    Nat.add_assoc]

/-! ### The keystream -/

/-- 42_ctr.md R131, R132: keystream block j is `E(k, CTRB_j)`. -/
theorem ctrKeystream_getElem (k : Key16) (m : Nat) (ctrb : Block16) (j : Nat) (h : j < m) :
    (ctrKeystream k m ctrb)[j]'(by simpa using h) = Config.E k (counterAt ctrb j) := by
  induction m generalizing ctrb j with
  | zero => exact absurd h (Nat.not_lt_zero j)
  | succ m ih =>
    cases j with
    | zero => rw [counterAt_zero]; rfl
    | succ j =>
      refine (ih (ctrInc ctrb) j (Nat.lt_of_succ_lt_succ h)).trans ?_
      rw [ctrInc_eq_counterAt, counterAt_counterAt, Nat.add_comm]

/-- 42_ctr.md R132: a byte of the output is the byte of the input XOR a byte that no input decides. -/
theorem ctrXcrypt_getD (k : Key16) (iv : Block16) (X : List Byte) {i : Nat} (h : i < X.length) :
    (ctrXcrypt k iv X).getD i 0 =
      X.getD i 0 ^^^ (Config.E k (counterAt iv (i / 16))).toList.getD (i % 16) 0 := by
  have hblock : i / 16 < nblk X.length := by rw [nblk]; omega
  rw [ctrXcrypt, streamXor_getD _ X i h (by simpa using hblock), ctrKeystream_getElem k _ iv _ hblock,
    block_toList_getD _ _ (Nat.mod_lt _ (by decide))]

/-- 42_ctr.md R135 (a): the keystream depends on the length only, and the second XOR with it cancels the first. -/
theorem ctrXcrypt_ctrXcrypt (k : Key16) (iv : Block16) (X : List Byte) :
    ctrXcrypt k iv (ctrXcrypt k iv X) = X := by
  refine List.ext_getElem (by simp) fun i hi hi' => ?_
  rw [← List.getD_eq_getElem _ 0 hi, ← List.getD_eq_getElem _ 0 hi', ctrXcrypt_getD k iv _ (by simpa using hi'),
    ctrXcrypt_getD k iv X hi', BitVec.xor_assoc, BitVec.xor_self, BitVec.xor_zero]

/-! ### The commands -/

/-- 42_ctr.md R133, R134: what either command answers once its checks pass. -/
theorem runOf_ctr {c : Instr} {s : State} (hc : c = .ctrEnc ∨ c = .ctrDec) (h : Ready c s) :
    runOf c s = .ok (ctrXcrypt s.key s.iv s.message) := by
  rcases hc with rfl | rfl <;> exact runOf_ready h

/-- 42_ctr.md R133, R134: the checks of either command. -/
theorem ready_ctr_iff {c : Instr} (hc : c = .ctrEnc ∨ c = .ctrDec) (s : State) :
    Ready c s ↔ CapIn s ∧ s.keyLen = 16 ∧ s.ivLen = 16 := by
  rcases hc with rfl | rfl <;> exact Iff.rfl

theorem State.ctrXcrypt_message_getD (s : State) {i : Nat} (h : i < s.dataLen.toNat) :
    (ctrXcrypt s.key s.iv s.message).getD i 0 = s.storeByte .inp i ^^^ ctrKeyByte s i := by
  rw [ctrXcrypt_getD s.key s.iv s.message (by simpa using h), s.message_getD i h, ctrKeyByte]

/-- 42_ctr.md R132: keystream bytes come from KEY and IV alone. -/
theorem ctrKeyByte_congr {s t : State} (hkey : t.key = s.key) (hiv : t.iv = s.iv) (i : Nat) :
    ctrKeyByte t i = ctrKeyByte s i := by
  rw [ctrKeyByte, ctrKeyByte, hkey, hiv]

end Sys2Proof.Machine
end

section
/-! SUPPORT. The statements about CTR (42_ctr.md), settled. -/

open Sys2Proof Sys2Proof.Machine

namespace Sys2Proof.Proofs

/-- Settles O43: the loop adds 1 digit by digit (`ctrIncLoop_eq`, by induction on the bytes). -/
theorem counterIncrementClosedForm : Obligations.CounterIncrementClosedForm := ctrInc_eq_counterAt

/-- Settles O44: the output is `ctrXcrypt` of the message, whose bytes `ctrXcrypt_getD` gives. -/
theorem ctrResult : Obligations.CtrResult := by
  intro s c hc hready
  obtain ⟨t, hexec, hdone⟩ := exec_succeeds (runOf_ctr hc hready)
  have hlength : (ctrXcrypt s.key s.iv s.message).length = s.dataLen.toNat := by simp
  exact ⟨t, _, hexec, hdone, hlength, fun i hi => s.ctrXcrypt_message_getD (hlength ▸ hi)⟩

/-- Settles O45: both commands commit the outcome of `ctrCommand`. -/
theorem ctrDecIsCtrEnc : Obligations.CtrDecIsCtrEnc := by
  obtain ⟨-, -, -, -, -, -, hword, -⟩ := nineWordsDecode
  have hrun (s : State) : runOf .ctrDec s = runOf .ctrEnc s := rfl
  exact ⟨hword, fun s => by rw [exec_eq_commit, exec_eq_commit, hrun]⟩

/-- Settles O46: the second state's message is the first one's output, as long as the message, and `ctrXcrypt` undoes
itself. -/
theorem ctrRoundTrip : Obligations.CtrRoundTrip := by
  intro s s' t c c' hc hc' hready hexec hkey hiv hkeyLen hivLen hdataLen hin
  obtain ⟨hcap, -, -⟩ := (ready_ctr_iff hc s).1 hready
  have hdone : Succeeded s t (ctrXcrypt s.key s.iv s.message) := succeeded_of_exec (runOf_ctr hc hready) hexec
  have hmessage : s'.message = ctrXcrypt s.key s.iv s.message :=
    State.message_eq (hdataLen ▸ hdone.outLen) fun i hi =>
      have hlt : i < t.outLen.toNat := hdone.outLen ▸ hi
      (hin i hlt).trans (hdone.outLen_bytes hlt)
  have hcap' : CapIn s' := by
    rwa [CapIn, hdataLen, hdone.outLen, ctrXcrypt_length, s.message_length]
  have hrun : runOf c' s' = .ok s.message := by
    rw [runOf_ctr hc' ((ready_ctr_iff hc' s').2 ⟨hcap', hkeyLen, hivLen⟩), hkey, hiv, hmessage, ctrXcrypt_ctrXcrypt]
  obtain ⟨t', hexec', hdone'⟩ := exec_succeeds hrun
  exact ⟨t', _, hexec', hdone', s.message_length, fun i hi => s.message_getD i (s.message_length ▸ hi)⟩

/-- Settles O47: both outputs XOR the same keystream byte into byte i, and it cancels. -/
theorem ctrByteIndependence : Obligations.CtrByteIndependence := by
  intro s s' t t' c hc hready hready' hkey hiv hexec hexec' i hi hi'
  have output {u v : State} (hu : Ready c u) (huv : exec c u = .next v) (hn : i < u.dataLen.toNat) :
      v.storeByte .out i = u.storeByte .inp i ^^^ ctrKeyByte u i := by
    have hdone : Succeeded u v (ctrXcrypt u.key u.iv u.message) := succeeded_of_exec (runOf_ctr hc hu) huv
    rw [hdone.out i (by simpa using hn), u.ctrXcrypt_message_getD hn]
  calc t.storeByte .out i ^^^ t'.storeByte .out i
      = s.storeByte .inp i ^^^ ctrKeyByte s i ^^^ (s'.storeByte .inp i ^^^ ctrKeyByte s i) := by
        rw [output hready hexec hi, output hready' hexec' hi', ctrKeyByte_congr hkey hiv]
    _ = s.storeByte .inp i ^^^ s'.storeByte .inp i := by
        rw [BitVec.xor_comm (s'.storeByte .inp i), BitVec.xor_assoc, ← BitVec.xor_assoc (ctrKeyByte s i),
          BitVec.xor_self, BitVec.zero_xor]

end Sys2Proof.Proofs
end

section
/-! SUPPORT. CCM by its blocks (30_encoding.md R87 to R93; 43_ccm.md R143 to R150): the bytes of the formatted blocks,
the payload keystream, the chunks of the MAC, and that the MAC never misses a change inside one chunk. -/

namespace Sys2Proof.Machine

/-! ### The formatted blocks -/

/-- 30_encoding.md R89, R91: a first byte, the nonce, and a number in the bytes left. -/
theorem formattedBlock_getElem (first : Byte) {nonce : List Byte} (hN : nonce.length ≤ 15) (v : Nat) {j : Nat}
    (hj : j < 16) :
    (blockOf (first :: nonce ++ beBytes (ccmL nonce.length) v))[j] =
      if j = 0 then first
      else if j ≤ nonce.length then nonce.getD (j - 1) 0
      else beByte (15 - nonce.length) v (j - nonce.length - 1) := by
  rw [blockOf_getElem _ j hj, List.cons_append]
  cases j with
  | zero => rfl
  | succ j =>
    rw [List.getD_cons_succ, if_neg (Nat.succ_ne_zero j), Nat.add_sub_cancel]
    split
    case isTrue hnonce => rw [List.getD_append _ _ _ _ hnonce]
    case isFalse hnumber =>
      rw [List.getD_append_right _ _ _ _ (by omega), ccmL, beBytes_getD _ _ _ (by omega), beByte,
        show j + 1 - nonce.length - 1 = j - nonce.length by omega]

/-- 30_encoding.md R88: the three fields of the flags byte do not overlap. -/
theorem ccmFlags_eq (h : Bool) {L : Nat} (hlo : 2 ≤ L) (hhi : L ≤ 8) :
    ccmFlags h L = BitVec.ofNat 8 ((if h then 0x40 else 0) + 0x38 + (L - 1)) := by
  interval_cases L <;> cases h <;> rfl

/-- 43_ccm.md R152: a counter that fits L bytes can be read from its counter block. -/
theorem ccmCounterBlock_inj {nonce : List Byte} (hN : nonce.length ≤ 15) {i j : Nat}
    (hi : i < 256 ^ (15 - nonce.length)) (hj : j < 256 ^ (15 - nonce.length))
    (h : ccmCounterBlock nonce i = ccmCounterBlock nonce j) : i = j := by
  have hbytes (v : Nat) : (ccmCounterBlock nonce v).toList =
      BitVec.ofNat 8 (ccmL nonce.length - 1) :: nonce ++ beBytes (15 - nonce.length) v :=
    blockOf_toList_of_length (by simp only [List.length_append, List.length_cons, beBytes_length, ccmL]; omega)
  have hnumbers : beBytes (15 - nonce.length) i = beBytes (15 - nonce.length) j :=
    List.append_cancel_left ((hbytes i).symm.trans ((congrArg Vector.toList h).trans (hbytes j)))
  have hint := congrArg intBe hnumbers
  rwa [intBe_beBytes, intBe_beBytes, Nat.mod_eq_of_lt hi, Nat.mod_eq_of_lt hj] at hint

/-! ### The payload keystream -/

theorem ccmKeystream_getElem (k : Key16) (nonce : List Byte) (m j : Nat) (h : j < m) :
    (ccmKeystream k nonce m)[j]'(by simpa using h) = ccmS k nonce (j + 1) := by
  simp [ccmKeystream]

/-- 43_ccm.md R148: a byte of the output is the byte of the input XOR a byte that no input decides. -/
theorem ccmCtr_getD (k : Key16) (nonce X : List Byte) {i : Nat} (h : i < X.length) :
    (ccmCtr k nonce X).getD i 0 = X.getD i 0 ^^^ (ccmS k nonce (i / 16 + 1)).toList.getD (i % 16) 0 := by
  have hblock : i / 16 < nblk X.length := by rw [nblk]; omega
  rw [ccmCtr, streamXor_getD _ X i h (by simpa using hblock), ccmKeystream_getElem k nonce _ _ hblock,
    block_toList_getD _ _ (Nat.mod_lt _ (by decide))]

theorem list_ext_getD {x y : List Byte} (hlength : x.length = y.length)
    (h : ∀ i, i < y.length → x.getD i 0 = y.getD i 0) : x = y := by
  refine List.ext_getElem hlength fun i hi hi' => ?_
  rw [← List.getD_eq_getElem _ 0 hi, ← List.getD_eq_getElem _ 0 hi', h i hi']

/-- Past the end of both sequences stands the same default. -/
theorem getD_eq_of_lt {x y : List Byte} (hlength : x.length = y.length) {i : Nat}
    (h : i < y.length → x.getD i 0 = y.getD i 0) : x.getD i 0 = y.getD i 0 := by
  by_cases hi : i < y.length
  · exact h hi
  · rw [List.getD_eq_default x 0 (by omega), List.getD_eq_default y 0 (by omega)]

/-- 43_ccm.md R148: the second XOR with the keystream cancels the first. -/
theorem ccmCtr_ccmCtr (k : Key16) (nonce X : List Byte) : ccmCtr k nonce (ccmCtr k nonce X) = X := by
  refine list_ext_getD (by simp) fun i hi => ?_
  rw [ccmCtr_getD k nonce _ (by simpa using hi), ccmCtr_getD k nonce X hi, BitVec.xor_assoc, BitVec.xor_self,
    BitVec.xor_zero]

theorem ccmCtr_inj (k : Key16) (nonce : List Byte) {X X' : List Byte} :
    ccmCtr k nonce X' = ccmCtr k nonce X ↔ X' = X :=
  ⟨fun h => by rw [← ccmCtr_ccmCtr k nonce X', h, ccmCtr_ccmCtr], fun h => by rw [h]⟩

/-! ### The chunks of the MAC -/

theorem macChunks_concat (k : Key16) (mac : Block16) (cs : List Block16) (c : Block16) :
    macChunks k mac (cs ++ [c]) = Config.E k (blockXor (macChunks k mac cs) c) := by
  simp [macChunks]

theorem macChunks_cons (k : Key16) (mac c : Block16) (cs : List Block16) :
    macChunks k mac (c :: cs) = macChunks k (Config.E k (blockXor mac c)) cs := rfl

/-- 43_ccm.md R155: with the chunks fixed, the MAC is a permutation of its starting value. -/
@[simp] theorem macChunks_inj (k : Key16) (mac mac' : Block16) (cs : List Block16) :
    macChunks k mac cs = macChunks k mac' cs ↔ mac = mac' := by
  induction cs generalizing mac mac' with
  | nil => exact Iff.rfl
  | cons c cs ih => rw [macChunks_cons, macChunks_cons, ih, Config.E_inj, blockXor_left_inj]

/-- 43_ccm.md R155: chunk sequences that differ in chunk q only have different MACs. -/
theorem macChunks_ne (k : Key16) (mac : Block16) {cs cs' : List Block16} {q : Nat} (hlength : cs'.length = cs.length)
    (hsame : ∀ j, j ≠ q → cs'[j]? = cs[j]?) (hne : cs' ≠ cs) : macChunks k mac cs' ≠ macChunks k mac cs := by
  induction cs generalizing cs' mac q with
  | nil => exact absurd (List.eq_nil_of_length_eq_zero hlength) hne
  | cons c cs ih =>
    obtain ⟨c', cs', rfl⟩ := List.exists_cons_of_length_eq_add_one hlength
    rw [macChunks_cons, macChunks_cons]
    cases q with
    | zero =>
      have htail : cs' = cs := List.ext_getElem? fun j => hsame (j + 1) (Nat.succ_ne_zero j)
      subst htail
      rw [ne_eq, macChunks_inj, Config.E_inj, blockXor_right_inj]
      exact fun hc => hne (by rw [hc])
    | succ q =>
      have hhead : c' = c := Option.some.inj (hsame 0 (Nat.succ_ne_zero q).symm)
      subst hhead
      exact ih _ (q := q) (Nat.succ.inj hlength) (fun j hj => hsame (j + 1) (by omega)) fun ht => hne (by rw [ht])

/-- `macChunks_ne` by the bytes of whole blocks. -/
theorem macChunks_blocks_ne (k : Key16) (mac : Block16) {x x' : List Byte} {q : Nat} (hlength : x'.length = x.length)
    (hwhole : x.length % 16 = 0) (hsame : ∀ i, i / 16 ≠ q → x'.getD i 0 = x.getD i 0) (hne : x' ≠ x) :
    macChunks k mac (blocks x') ≠ macChunks k mac (blocks x) := by
  refine macChunks_ne (q := q) k mac (by rw [blocks_length, blocks_length, hlength]) (fun j hj => ?_) fun hblocks => ?_
  · by_cases hlt : j < x.length / 16
    · rw [List.getElem?_eq_getElem (by simpa [hlength] using hlt), List.getElem?_eq_getElem (by simpa using hlt),
        blocks_getElem, blocks_getElem]
      exact congrArg some (blockAt_congr fun i hlo hhi => hsame i (by omega))
    · rw [List.getElem?_eq_none (by simpa [hlength] using hlt), List.getElem?_eq_none (by simpa using hlt)]
  · rw [← unblocks_blocks x' (hlength ▸ hwhole), hblocks, unblocks_blocks x hwhole] at hne
    exact hne rfl

/-! ### The associated-data string and the tag -/

theorem ccmAads_of_length_zero {A : List Byte} (h : A.length = 0) : ccmAads A = [] := if_pos h

theorem ccmAads_of_length_pos {A : List Byte} (h : 0 < A.length) :
    ccmAads A = beBytes 2 A.length ++ A ++ List.replicate (zpadLength (A.length + 2)) 0 := if_neg (by omega)

theorem ccmAads_length {A : List Byte} (h : 0 < A.length) : (ccmAads A).length = 16 * ((A.length + 2 + 15) / 16) := by
  simp only [ccmAads_of_length_pos h, zpadLength, List.length_append, beBytes_length, List.length_replicate]
  omega

/-- 30_encoding.md R90: the length in two bytes, the data, zeros. -/
theorem ccmAads_getD {A : List Byte} (h : 0 < A.length) (i : Nat) :
    (ccmAads A).getD i 0 = if i < 2 then beByte 2 A.length i else A.getD (i - 2) 0 := by
  have hfront : (beBytes 2 A.length ++ A).length = A.length + 2 := by
    rw [List.length_append, beBytes_length, Nat.add_comm]
  rw [ccmAads_of_length_pos h]
  by_cases hdata : i < A.length + 2
  · rw [List.getD_append _ _ _ _ (hfront ▸ hdata)]
    split
    case isTrue hi => rw [List.getD_append _ _ _ _ (by simpa using hi), beBytes_getD _ _ _ hi, beByte]
    case isFalse hi => rw [List.getD_append_right _ _ _ _ (by rw [beBytes_length]; omega), beBytes_length]
  · rw [List.getD_append_right _ _ _ _ (by omega), if_neg (by omega), List.getD_eq_default A _ (by omega),
      List.getD_eq_getElem?_getD, List.getElem?_getD_replicate_default_eq]

/-- 43_ccm.md R155, payload case. -/
theorem ccmMac_payload_ne (k : Key16) (nonce A : List Byte) {P P' : List Byte} {q : Nat}
    (hlength : P'.length = P.length) (hsame : ∀ i, i < P.length → i / 16 ≠ q → P'.getD i 0 = P.getD i 0)
    (hne : P' ≠ P) :
    ccmMac k nonce P' A ≠ ccmMac k nonce P A := by
  rw [ccmMac, ccmMac, hlength]
  refine macChunks_blocks_ne (q := q) k _ (by rw [zpad16_length, zpad16_length, hlength])
    (by rw [zpad16_length, Nat.mul_mod_right]) (fun i hi => ?_) fun hpadded => ?_
  · rw [zpad16_getD, zpad16_getD, getD_eq_of_lt hlength fun hlt => hsame i hlt hi]
  · exact hne (list_ext_getD hlength fun i _ => by rw [← zpad16_getD P', hpadded, zpad16_getD])

/-- 43_ccm.md R155, associated-data case: data byte i stands in chunk (i + 2) / 16 of AADS. -/
theorem ccmMac_aad_ne (k : Key16) (nonce P : List Byte) {A A' : List Byte} {q : Nat} (hlength : A'.length = A.length)
    (hsame : ∀ i, i < A.length → (i + 2) / 16 ≠ q → A'.getD i 0 = A.getD i 0) (hne : A' ≠ A) :
    ccmMac k nonce P A' ≠ ccmMac k nonce P A := by
  have hpos : 0 < A.length := Nat.pos_of_ne_zero fun h0 =>
    hne ((List.eq_nil_of_length_eq_zero (hlength.trans h0)).trans (List.eq_nil_of_length_eq_zero h0).symm)
  have hpos' : 0 < A'.length := hlength ▸ hpos
  rw [ccmMac, ccmMac, hasAAD, hasAAD, hlength, ne_eq, macChunks_inj]
  refine macChunks_blocks_ne (q := q) k _ (by rw [ccmAads_length hpos', ccmAads_length hpos, hlength])
    (by rw [ccmAads_length hpos, Nat.mul_mod_right]) (fun i hi => ?_) fun haads => ?_
  · rw [ccmAads_getD hpos', ccmAads_getD hpos, hlength]
    split
    case isTrue => rfl
    case isFalse hdata =>
      exact getD_eq_of_lt hlength fun hlt => hsame (i - 2) hlt (by rwa [Nat.sub_add_cancel (by omega)])
  · refine hne (list_ext_getD hlength fun i _ => ?_)
    have hbyte := congrArg (·.getD (i + 2) 0) haads
    simpa only [ccmAads_getD hpos', ccmAads_getD hpos, if_neg (show ¬ i + 2 < 2 by omega), Nat.add_sub_cancel]
      using hbyte

/-! ### Opening what was sealed -/

/-- 43_ccm.md R154: the outcome by the recomputed tag. -/
theorem ccmOpen_eq (k : Key16) (nonce X A : List Byte) :
    ccmOpen k nonce X A =
      if ccmMac k nonce (ccmCtr k nonce (X.take (X.length - 16))) A =
          blockXor (blockOf (X.drop (X.length - 16))) (ccmS k nonce 0) then
        .ok (ccmCtr k nonce (X.take (X.length - 16)))
      else .error .auth := by
  simp only [ccmOpen, tagEq_iff]

/-- 43_ccm.md R154, for a ciphertext given by its two parts. -/
theorem ccmOpen_append (k : Key16) (nonce C : List Byte) (U : Block16) (A : List Byte) :
    ccmOpen k nonce (C ++ U.toList) A =
      if ccmMac k nonce (ccmCtr k nonce C) A = blockXor U (ccmS k nonce 0) then .ok (ccmCtr k nonce C)
      else .error .auth := by
  have hlength : (C ++ U.toList).length - 16 = C.length := by simp
  rw [ccmOpen_eq, hlength, List.take_left, List.drop_left, blockOf_toList]

/-- 43_ccm.md R156. -/
theorem ccmOpen_ccmSeal (k : Key16) (nonce P A : List Byte) :
    ccmOpen k nonce (ccmSeal k nonce P A) A = .ok P := by
  rw [ccmSeal, ccmOpen_append, ccmCtr_ccmCtr, blockXor_cancel, if_pos rfl]

/-- 43_ccm.md R155 (a): a changed tag. -/
theorem ccmOpen_tag_changed (k : Key16) (nonce P A : List Byte) {U : Block16}
    (hne : U ≠ blockXor (ccmMac k nonce P A) (ccmS k nonce 0)) :
    ccmOpen k nonce (ccmCtr k nonce P ++ U.toList) A = .error .auth := by
  rw [ccmOpen_append, ccmCtr_ccmCtr, if_neg]
  exact fun htag => hne (by rw [htag, blockXor_cancel])

/-- 43_ccm.md R155 (b): a ciphertext changed within chunk q decrypts to a payload changed within chunk q. -/
theorem ccmOpen_payload_changed (k : Key16) (nonce P A : List Byte) {C : List Byte} {q : Nat}
    (hlength : C.length = P.length)
    (hsame : ∀ i, i < P.length → i / 16 ≠ q → C.getD i 0 = (ccmCtr k nonce P).getD i 0)
    (hne : C ≠ ccmCtr k nonce P) :
    ccmOpen k nonce (C ++ (blockXor (ccmMac k nonce P A) (ccmS k nonce 0)).toList) A = .error .auth := by
  have hpayload : ccmCtr k nonce C ≠ P := by
    rw [ne_eq, ← ccmCtr_inj k nonce, ccmCtr_ccmCtr]
    exact hne
  rw [ccmOpen_append, blockXor_cancel, if_neg]
  refine ccmMac_payload_ne (q := q) k nonce A (by rw [ccmCtr_length, hlength]) (fun i hi hq => ?_) hpayload
  rw [ccmCtr_getD k nonce C (hlength ▸ hi), hsame i hi hq, ccmCtr_getD k nonce P hi, BitVec.xor_assoc,
    BitVec.xor_self, BitVec.xor_zero]

/-- 43_ccm.md R155: associated data changed within one chunk of AADS. -/
theorem ccmOpen_aad_changed (k : Key16) (nonce P : List Byte) {A A' : List Byte} {q : Nat}
    (hlength : A'.length = A.length)
    (hsame : ∀ i, i < A.length → (i + 2) / 16 ≠ q → A'.getD i 0 = A.getD i 0) (hne : A' ≠ A) :
    ccmOpen k nonce (ccmSeal k nonce P A) A' = .error .auth := by
  rw [ccmSeal, ccmOpen_append, ccmCtr_ccmCtr, blockXor_cancel, if_neg]
  exact ccmMac_aad_ne k nonce P hlength hsame hne

end Sys2Proof.Machine
end

section
/-! SUPPORT. CCM_ENC and CCM_DEC on a state (43_ccm.md R140 to R154): their checks in order, the bytes that the rules
name, and the state that can open what another has sealed. -/

namespace Sys2Proof.Machine

/-! ### The checks -/

/-- 43_ccm.md R141: `plen`, the length of the payload of CCM_ENC or CCM_DEC. -/
abbrev CcmPayloadLength (c : Instr) (s : State) (plen : Nat) : Prop :=
  (c = .ccmEnc ∧ plen = s.dataLen.toNat) ∨ (c = .ccmDec ∧ plen = s.dataLen.toNat - 16)

/-- 60_exceptions.md R177: the checks of both commands, in their order. -/
theorem runOf_ccm {c : Instr} {s : State} {plen : Nat} (h : CcmPayloadLength c s plen) :
    runOf c s =
      if Config.inMax < s.dataLen.toNat then .error (.length .capIn)
      else if Config.aadMax < s.aadLen.toNat then .error (.length .capAad)
      else if s.keyLen ≠ 16 then .error .cipherInit
      else if s.ivLen.toNat < 7 ∨ 13 < s.ivLen.toNat then .error (.length .ivLen)
      else if c = .ccmDec ∧ s.dataLen.toNat < 16 then .error (.length .dataShort)
      else if 2 ^ (8 * (15 - s.ivLen.toNat)) ≤ plen then .error (.length .msgLen)
      else resultOf c s := by
  have hkey := s.keyLength_eq_iff
  rcases h with ⟨rfl, rfl⟩ | ⟨rfl, rfl⟩
  · simp only [runOf, runCcmEnc, ne_eq, hkey, reduceCtorEq, false_and, if_false]
    rfl
  · simp only [runOf, runCcmDec, ne_eq, hkey, true_and]
    rfl

/-- 43_ccm.md R153, R154: past the checks the only error is AUTH. -/
theorem resultOf_ccm_error {c : Instr} {s : State} (hc : c = .ccmEnc ∨ c = .ccmDec) {e : CmdError}
    (h : resultOf c s = .error e) : e = .auth := by
  rcases hc with rfl | rfl
  · cases h
  · rw [resultOf, ccmOpen_eq] at h
    split at h <;> cases h
    rfl

/-- 43_ccm.md R142: where the last check fails. -/
theorem runOf_ccm_msgLen_iff {c : Instr} {s : State} {plen : Nat} (h : CcmPayloadLength c s plen) :
    runOf c s = .error (.length .msgLen) ↔
      CapIn s ∧ s.aadLen.toNat ≤ Config.aadMax ∧ s.keyLen = 16 ∧ 7 ≤ s.ivLen.toNat ∧ s.ivLen.toNat ≤ 13 ∧
        (c = .ccmDec → 16 ≤ s.dataLen.toNat) ∧ 2 ^ (8 * (15 - s.ivLen.toNat)) ≤ plen := by
  rw [runOf_ccm h]
  constructor
  · intro herr
    split_ifs at herr with hin haad hkey hnonce hshort hlong
    any_goals cases herr
    · exact ⟨Nat.le_of_not_lt hin, Nat.le_of_not_lt haad, not_not.1 hkey, by omega, by omega,
        fun hc => Nat.le_of_not_lt fun hlt => hshort ⟨hc, hlt⟩, hlong⟩
    · exact absurd (resultOf_ccm_error (h.imp And.left And.left) herr) nofun
  · rintro ⟨hin, haad, hkey, hlo, hhi, hshort, hlong⟩
    rw [if_neg (Nat.not_lt.2 hin), if_neg (Nat.not_lt.2 haad), if_neg (not_not.2 hkey), if_neg (by omega),
      if_neg fun hlt => Nat.not_lt.2 (hshort hlt.1) hlt.2, if_pos hlong]

/-- 00_scope.md R7, 43_ccm.md R142: IN is smaller than `2^24`, so only the shortest length field can be too short. -/
theorem two_pow_le_payload_iff {N plen : Nat} (hlo : 7 ≤ N) (hhi : N ≤ 13) (hplen : plen ≤ Config.inMax) :
    2 ^ (8 * (15 - N)) ≤ plen ↔ N = 13 ∧ 65535 < plen := by
  constructor
  · intro hlong
    have hN : N = 13 := by
      by_contra hne
      have hpow : 2 ^ (8 * 3) ≤ 2 ^ (8 * (15 - N)) := Nat.pow_le_pow_right (by decide) (by omega)
      have hmax := Config.inMax_le
      omega
    subst hN
    exact ⟨rfl, hlong⟩
  · rintro ⟨rfl, hlong⟩
    exact hlong

/-- 60_exceptions.md R172: code 2 with subcode 6 is MSGLEN only. -/
theorem CmdError.eq_msgLen {e : CmdError} (hcode : e.code = 2) (hinfo : e.info = 6) : e = .length .msgLen := by
  cases e with
  | length cause =>
    cases cause with
    | msgLen => rfl
    | _ => exact absurd hinfo (by decide)
  | illegalCmd why => exact absurd hcode (show (5 : BitVec 4) ≠ 2 by decide)
  | _ => exact absurd hcode (by decide)

theorem exec_reports_msgLen_iff {c : Instr} {s t : State} (h : exec c s = .next t) :
    (t.err = true ∧ t.errcode = 2 ∧ t.errinfo = 6) ↔ runOf c s = .error (.length .msgLen) := by
  rcases exec_cases h with ⟨y, hrun, hdone⟩ | ⟨e, hrun, hdone⟩
  · simp [hrun, hdone.err]
  · rw [hrun, hdone.err, hdone.errcode, hdone.errinfo]
    constructor
    · rintro ⟨-, hcode, hinfo⟩
      rw [CmdError.eq_msgLen hcode hinfo]
    · intro herr
      cases herr
      exact ⟨rfl, rfl, rfl⟩

/-! ### The bytes that the rules name -/

theorem State.memRead_eq {s : State} {S : Store} {n : Nat} {x : List Byte} (hlength : x.length = n)
    (h : ∀ i, i < n → s.storeByte S i = x.getD i 0) : s.memRead S 0 n = x := by
  subst hlength
  refine list_ext_getD (s.memRead_length S 0 _) fun i hi => ?_
  rw [s.memRead_getD S 0 _ i hi, Nat.zero_add, h i hi]

/-- 30_encoding.md R89, R91: `formattedBlock_getElem` for the nonce in IV. -/
theorem State.formattedBlock_eq {s : State} (hhi : s.ivLen.toNat ≤ 13) (first : Byte) (v : Nat) :
    blockOf (first :: s.nonce ++ beBytes (ccmL s.nonce.length) v) =
      blockAt (fun j =>
        if j = 0 then first
        else if j ≤ s.ivLen.toNat then s.storeByte .iv (j - 1)
        else beByte (15 - s.ivLen.toNat) v (j - s.ivLen.toNat - 1)) 0 := by
  have hN := s.nonce_length
  refine Vector.ext fun j hj => ?_
  rw [formattedBlock_getElem first (by omega) v hj, blockAt_getElem _ 0 j hj, hN, Nat.mul_zero, Nat.zero_add]
  split
  case isTrue => rfl
  case isFalse hpos =>
    split
    case isTrue hnonce => exact s.nonce_getD (j - 1) (by omega)
    case isFalse => rfl

theorem State.ccmB0_nonce {s : State} (hlo : 7 ≤ s.ivLen.toNat) (hhi : s.ivLen.toNat ≤ 13) (plen : Nat) :
    ccmB0 s.nonce plen (hasAAD s.assocData) = blockAt (b0Byte s plen) 0 := by
  have hflags : ccmFlags (hasAAD s.assocData) (ccmL s.nonce.length) =
      BitVec.ofNat 8 ((if 0 < s.aadLen.toNat then 0x40 else 0) + 0x38 + (15 - s.ivLen.toNat - 1)) := by
    rw [s.nonce_length, ccmL, ccmFlags_eq _ (by omega) (by omega), hasAAD, s.assocData_length]
    simp only [decide_eq_true_eq]
  rw [ccmB0, hflags]
  exact State.formattedBlock_eq hhi _ plen

/-- 43_ccm.md R147. -/
theorem State.ccmS_nonce {s : State} (hhi : s.ivLen.toNat ≤ 13) (i : Nat) :
    ccmS s.key s.nonce i = streamBlock s i := by
  rw [ccmS, streamBlock, ccmCounterBlock, State.formattedBlock_eq hhi, s.nonce_length]
  rfl

/-- 43_ccm.md R148. -/
theorem State.ccmCtr_nonce_getD {s : State} (hhi : s.ivLen.toNat ≤ 13) (X : List Byte) {i : Nat} (h : i < X.length) :
    (ccmCtr s.key s.nonce X).getD i 0 = X.getD i 0 ^^^ ccmKeyByte s i := by
  rw [ccmCtr_getD s.key s.nonce X h, State.ccmS_nonce hhi, ccmKeyByte]

/-! ### The tag -/

theorem blocks_eq_map {x : List Byte} {f : Nat → Byte} {n : Nat} (hlength : x.length = 16 * n)
    (h : ∀ i, i < x.length → x.getD i 0 = f i) : blocks x = (List.range n).map (blockAt f) := by
  refine List.ext_getElem (by simp [hlength]) fun j hj _ => ?_
  rw [blocks_getElem x j hj, List.getElem_map, List.getElem_range]
  rw [blocks_length] at hj
  exact blockAt_congr fun i _ hi => h i (by omega)

theorem macAfter_succ_aad {s : State} {q : Nat} (h : q < aadChunks s) (plen : Nat) (payload : Nat → Byte) :
    macAfter s plen payload (q + 1) =
      Config.E s.key (blockXor (macAfter s plen payload q) (blockAt (aadsByte s) q)) := by
  rw [macAfter, if_pos h]

theorem macAfter_succ_payload (s : State) (plen : Nat) (payload : Nat → Byte) (m : Nat) :
    macAfter s plen payload (aadChunks s + m + 1) =
      Config.E s.key (blockXor (macAfter s plen payload (aadChunks s + m))
        (blockAt (fun i => if i < plen then payload i else 0) m)) := by
  rw [macAfter, if_neg (by omega), Nat.add_sub_cancel_left]

/-- 43_ccm.md R144: the accumulator over the chunks of AADS. -/
theorem macAfter_aad (s : State) (plen : Nat) (payload : Nat → Byte) {q : Nat} (h : q ≤ aadChunks s) :
    macAfter s plen payload q =
      macChunks s.key (macAfter s plen payload 0) ((List.range q).map (blockAt (aadsByte s))) := by
  induction q with
  | zero => rfl
  | succ q ih =>
    rw [macAfter_succ_aad h, ih (Nat.le_of_succ_le h), List.range_succ, List.map_append,
      List.map_singleton, macChunks_concat]

/-- 43_ccm.md R145: the accumulator over the chunks of the payload. -/
theorem macAfter_payload (s : State) (plen : Nat) (payload : Nat → Byte) (m : Nat) :
    macAfter s plen payload (aadChunks s + m) =
      macChunks s.key (macAfter s plen payload (aadChunks s))
        ((List.range m).map (blockAt fun i => if i < plen then payload i else 0)) := by
  induction m with
  | zero => rfl
  | succ m ih =>
    rw [← Nat.add_assoc, macAfter_succ_payload, ih, List.range_succ, List.map_append,
      List.map_singleton, macChunks_concat]

/-- 30_encoding.md R90: the chunks of AADS; there are none without associated data. -/
theorem State.blocks_ccmAads (s : State) :
    blocks (ccmAads s.assocData) = (List.range (aadChunks s)).map (blockAt (aadsByte s)) := by
  have ha := s.assocData_length
  by_cases h0 : s.aadLen.toNat = 0
  · rw [ccmAads_of_length_zero (ha.trans h0), aadChunks, if_pos h0]
    rfl
  · have hpos : 0 < s.assocData.length := by omega
    rw [aadChunks, if_neg h0]
    refine blocks_eq_map (by rw [ccmAads_length hpos, ha]) fun i _ => ?_
    rw [ccmAads_getD hpos, aadsByte, ha]
    split
    case isTrue => rfl
    case isFalse hi =>
      split
      case isTrue hdata => exact s.assocData_getD (i - 2) (by omega)
      case isFalse hdata => exact List.getD_eq_default _ 0 (by omega)

/-- 43_ccm.md R146: the model's MAC of a payload given as a list is the rules' tag of its bytes. -/
theorem State.ccmMac_eq_ccmTag {s : State} (hlo : 7 ≤ s.ivLen.toNat) (hhi : s.ivLen.toNat ≤ 13) {P : List Byte}
    {plen : Nat} {payload : Nat → Byte} (hlength : P.length = plen) (hP : ∀ i, i < plen → P.getD i 0 = payload i) :
    ccmMac s.key s.nonce P s.assocData = ccmTag s plen payload := by
  have hpayload : blocks (zpad16 P) =
      (List.range ((plen + 15) / 16)).map (blockAt fun i => if i < plen then payload i else 0) := by
    refine blocks_eq_map (by rw [zpad16_length, hlength]) fun i _ => ?_
    rw [zpad16_getD]
    split
    case isTrue hi => exact hP i hi
    case isFalse hi => exact List.getD_eq_default _ 0 (by omega)
  have hseed : macAfter s plen payload 0 = Config.E s.key (blockAt (b0Byte s plen) 0) := rfl
  rw [ccmTag, macAfter_payload, macAfter_aad s plen payload le_rfl, hseed, ccmMac, hlength, State.ccmB0_nonce hlo hhi,
    s.blocks_ccmAads, hpayload]

/-! ### A ciphertext in IN and in OUT -/

theorem blockAt_zero_inj {f g : Nat → Byte} (h : blockAt f 0 = blockAt g 0) {i : Nat} (hi : i < 16) : f i = g i := by
  have hf := blockAt_getElem f 0 i hi
  have hg := blockAt_getElem g 0 i hi
  simp only [Nat.mul_zero, Nat.zero_add] at hf hg
  rw [← hf, ← hg, h]

theorem blockAt_append_block {x : List Byte} {n : Nat} (h : x.length = n) (U : Block16) :
    blockAt (fun i => (x ++ U.toList).getD (n + i) 0) 0 = U := by
  subst h
  refine Vector.ext fun i hi => ?_
  rw [blockAt_getElem _ 0 i hi, Nat.mul_zero, Nat.zero_add, List.getD_append_right _ _ _ _ (Nat.le_add_right _ i),
    Nat.add_sub_cancel_left, block_toList_getD U i hi]

/-- 43_ccm.md R154: IN holds `C ‖ U`. -/
theorem State.message_eq_append_block {s : State} {n : Nat} (h : s.dataLen.toNat = n + 16) :
    s.message = s.memRead .inp 0 n ++ (blockAt (fun i => s.storeByte .inp (n + i)) 0).toList := by
  refine State.message_eq (by simp [h]) fun i hi => ?_
  rw [List.length_append, s.memRead_length, Vector.length_toList] at hi
  by_cases hC : i < n
  · rw [List.getD_append _ _ _ _ (by simpa using hC), s.memRead_getD .inp 0 n i hC, Nat.zero_add]
  · rw [List.getD_append_right _ _ _ _ (by simpa using hC), s.memRead_length, block_toList_getD _ _ (by omega),
      blockAt_getElem _ 0 _ (by omega), Nat.mul_zero, Nat.zero_add, Nat.add_sub_cancel' (by omega)]

/-- 10_state.md R39 to R42: a state whose key, nonce and lengths, KEY_LEN among them, are those of a state that
CCM_ENC ran on. -/
structure CcmPeer (s s' : State) : Prop where
  key : s'.key = s.key
  keyLen : s'.keyLen = 16
  ivLen : s'.ivLen = s.ivLen
  aadLen : s'.aadLen = s.aadLen
  iv : ∀ i, i < s.ivLen.toNat → s'.storeByte .iv i = s.storeByte .iv i

theorem CcmPeer.nonce {s s' : State} (h : CcmPeer s s') : s'.nonce = s.nonce := by
  have hN : s'.ivLength = s.ivLength := congrArg BitVec.toNat h.ivLen
  rw [State.nonce, hN]
  exact State.memRead_congr h.iv

theorem CcmPeer.assocData {s s' : State} (h : CcmPeer s s')
    (haad : ∀ i, i < s.aadLen.toNat → s'.storeByte .aad i = s.storeByte .aad i) : s'.assocData = s.assocData := by
  have ha : s'.aadLength = s.aadLength := congrArg BitVec.toNat h.aadLen
  rw [State.assocData, ha]
  exact State.memRead_congr haad

/-- 43_ccm.md R154: CCM_DEC's checks pass on whatever is as long as the ciphertext and fits IN. -/
theorem CcmPeer.runOf_ccmDec {s s' : State} (h : CcmPeer s s') (hready : Ready .ccmEnc s)
    (hn : s'.dataLen.toNat = s.dataLen.toNat + 16) (hin : CapIn s') :
    runOf .ccmDec s' = ccmOpen s.key s.nonce s'.message s'.assocData := by
  obtain ⟨-, haad, -, hlo, hhi, hplen⟩ := hready
  have hready' : Ready .ccmDec s' :=
    ⟨hin, h.aadLen ▸ haad, h.keyLen, by omega, h.ivLen ▸ hlo, h.ivLen ▸ hhi, by
      rwa [hn, Nat.add_sub_cancel, h.ivLen]⟩
  rw [← h.key, ← h.nonce]
  exact runOf_ready hready'

theorem CcmPeer.exec_auth {s s' : State} (h : CcmPeer s s') (hready : Ready .ccmEnc s)
    (hn : s'.dataLen.toNat = s.dataLen.toNat + 16) (hin : CapIn s')
    (hopen : ccmOpen s.key s.nonce s'.message s'.assocData = .error .auth) :
    ∃ t, exec .ccmDec s' = .next t ∧ Failed s' t 4 0 :=
  exec_fails ((h.runOf_ccmDec hready hn hin).trans hopen)

/-! ### What was sealed, as it is and changed -/

section

variable {s s' t : State} (hdone : Succeeded s t (ccmSeal s.key s.nonce s.message s.assocData))
include hdone

/-- 43_ccm.md R153: OUT begins with the encrypted payload. -/
theorem sealed_payload {i : Nat} (hi : i < s.dataLen.toNat) :
    t.storeByte .out i = (ccmCtr s.key s.nonce s.message).getD i 0 := by
  have hlength := s.message_length
  rw [hdone.out i (by rw [ccmSeal_length]; omega), ccmSeal, List.getD_append _ _ _ _ (by simpa using hi)]

/-- 43_ccm.md R153: after the payload stands the encrypted tag. -/
theorem sealed_tag : blockAt (fun i => t.storeByte .out (s.dataLen.toNat + i)) 0 =
    blockXor (ccmMac s.key s.nonce s.message s.assocData) (ccmS s.key s.nonce 0) := by
  have hlength := s.message_length
  have hC : (ccmCtr s.key s.nonce s.message).length = s.dataLen.toNat := by simp
  refine Eq.trans (blockAt_congr fun i _ hi => ?_) (blockAt_append_block hC _)
  exact hdone.out (s.dataLen.toNat + i) (by rw [ccmSeal_length]; omega)

variable (hpeer : CcmPeer s s') (hn : s'.dataLen.toNat = s.dataLen.toNat + 16)
include hn

/-- The output read back into IN. -/
theorem message_eq_ccmSeal (hin : ∀ i, i < s.dataLen.toNat + 16 → s'.storeByte .inp i = t.storeByte .out i) :
    s'.message = ccmSeal s.key s.nonce s.message s.assocData := by
  have hlength : (ccmSeal s.key s.nonce s.message s.assocData).length = s.dataLen.toNat + 16 := by simp
  exact State.message_eq (hn.trans hlength.symm) fun i hi => (hin i (hlength ▸ hi)).trans (hdone.out i hi)

include hpeer

/-- 43_ccm.md R155 (a). -/
theorem ccmOpen_auth_of_tag_changed
    (haad : ∀ i, i < s.aadLen.toNat → s'.storeByte .aad i = s.storeByte .aad i)
    (hC : ∀ i, i < s.dataLen.toNat → s'.storeByte .inp i = t.storeByte .out i) {i : Nat} (hlo : s.dataLen.toNat ≤ i)
    (hhi : i < s.dataLen.toNat + 16) (hne : s'.storeByte .inp i ≠ t.storeByte .out i) :
    ccmOpen s.key s.nonce s'.message s'.assocData = .error .auth := by
  have hC' : s'.memRead .inp 0 s.dataLen.toNat = ccmCtr s.key s.nonce s.message :=
    State.memRead_eq (by simp) fun i hi => (hC i hi).trans (sealed_payload hdone hi)
  rw [State.message_eq_append_block hn, hC', hpeer.assocData haad]
  refine ccmOpen_tag_changed _ _ _ _ fun hU => hne ?_
  have hbyte := blockAt_zero_inj (hU.trans (sealed_tag hdone).symm) (i := i - s.dataLen.toNat) (by omega)
  rwa [Nat.add_sub_cancel' hlo] at hbyte

/-- 43_ccm.md R155 (b). -/
theorem ccmOpen_auth_of_payload_changed {q : Nat}
    (haad : ∀ i, i < s.aadLen.toNat → s'.storeByte .aad i = s.storeByte .aad i)
    (hU : ∀ i, s.dataLen.toNat ≤ i → i < s.dataLen.toNat + 16 → s'.storeByte .inp i = t.storeByte .out i)
    (hC : ∀ i, i < s.dataLen.toNat → i / 16 ≠ q → s'.storeByte .inp i = t.storeByte .out i) {i : Nat}
    (hi : i < s.dataLen.toNat) (hne : s'.storeByte .inp i ≠ t.storeByte .out i) :
    ccmOpen s.key s.nonce s'.message s'.assocData = .error .auth := by
  have hU' : blockAt (fun i => s'.storeByte .inp (s.dataLen.toNat + i)) 0 =
      blockXor (ccmMac s.key s.nonce s.message s.assocData) (ccmS s.key s.nonce 0) :=
    (blockAt_congr fun i _ hi => hU _ (by omega) (by omega)).trans (sealed_tag hdone)
  have hbyte (i : Nat) (hi : i < s.dataLen.toNat) :
      (s'.memRead .inp 0 s.dataLen.toNat).getD i 0 = s'.storeByte .inp i := by
    rw [s'.memRead_getD .inp 0 _ i hi, Nat.zero_add]
  rw [State.message_eq_append_block hn, hU', hpeer.assocData haad]
  refine ccmOpen_payload_changed (q := q) _ _ _ _ (by simp) (fun i hi hq => ?_) fun hsame => hne ?_
  · rw [s.message_length] at hi
    rw [hbyte i hi, hC i hi hq, sealed_payload hdone hi]
  · rw [← hbyte i hi, hsame, sealed_payload hdone hi]

/-- 43_ccm.md R155, associated data. -/
theorem ccmOpen_auth_of_aad_changed {q : Nat}
    (hin : ∀ i, i < s.dataLen.toNat + 16 → s'.storeByte .inp i = t.storeByte .out i)
    (haad : ∀ i, i < s.aadLen.toNat → (i + 2) / 16 ≠ q → s'.storeByte .aad i = s.storeByte .aad i) {i : Nat}
    (hi : i < s.aadLen.toNat) (hne : s'.storeByte .aad i ≠ s.storeByte .aad i) :
    ccmOpen s.key s.nonce s'.message s'.assocData = .error .auth := by
  have hlength : s'.assocData.length = s.assocData.length := by simp [hpeer.aadLen]
  have hbyte (i : Nat) (hi : i < s.aadLen.toNat) : s'.assocData.getD i 0 = s'.storeByte .aad i :=
    s'.assocData_getD i (hpeer.aadLen ▸ hi)
  rw [message_eq_ccmSeal hdone hn hin]
  refine ccmOpen_aad_changed (q := q) _ _ _ hlength (fun i hi hq => ?_) fun hsame => hne ?_
  · rw [s.assocData_length] at hi
    rw [hbyte i hi, haad i hi hq, s.assocData_getD i hi]
  · rw [← hbyte i hi, hsame, s.assocData_getD i hi]

end

end Sys2Proof.Machine
end

section
/-! SUPPORT. The statements about CCM (43_ccm.md), settled. -/

open Sys2Proof Sys2Proof.Machine

namespace Sys2Proof.Proofs

/-- Settles O48: the output is `ccmSeal` of the message, whose keystream and MAC are those of the rules
(`State.ccmCtr_nonce_getD`, `State.ccmMac_eq_ccmTag`). -/
theorem ccmEncResult : Obligations.CcmEncResult := by
  intro s hready
  have ⟨_, _, _, hlo, hhi, _⟩ := hready
  obtain ⟨t, hexec, hdone⟩ := exec_succeeds (runOf_ready hready)
  refine ⟨t, ccmSeal s.key s.nonce s.message s.assocData, hexec, hdone, by simp, fun i hi => ?_, ?_⟩
  · rw [ccmSeal, List.getD_append _ _ _ _ (by simpa using hi), State.ccmCtr_nonce_getD hhi _ (by simpa using hi),
      s.message_getD i hi]
  · rw [← State.ccmMac_eq_ccmTag hlo hhi s.message_length s.message_getD, ← State.ccmS_nonce hhi]
    exact blockAt_append_block (by simp) _

/-- Settles O49: the recomputed MAC is the rules' tag of the recovered payload, and the outcome turns on its comparison
with T' (`ccmOpen_append`). -/
theorem ccmDecResult : Obligations.CcmDecResult := by
  rintro s plen P T' hready rfl rfl rfl
  have ⟨_, _, _, hlong, hlo, hhi, _⟩ := hready
  have hlength : (ccmCtr s.key s.nonce (s.memRead .inp 0 (s.dataLen.toNat - 16))).length = s.dataLen.toNat - 16 := by
    simp
  have hpayload (i : Nat) (hi : i < s.dataLen.toNat - 16) :
      (ccmCtr s.key s.nonce (s.memRead .inp 0 (s.dataLen.toNat - 16))).getD i 0 =
        s.storeByte .inp i ^^^ ccmKeyByte s i := by
    rw [State.ccmCtr_nonce_getD hhi _ (by simpa using hi), s.memRead_getD .inp 0 _ i hi, Nat.zero_add]
  have hrun : runOf .ccmDec s = ccmOpen s.key s.nonce s.message s.assocData := runOf_ready hready
  rw [State.message_eq_append_block (s := s) (n := s.dataLen.toNat - 16) (by omega), ccmOpen_append,
    State.ccmMac_eq_ccmTag hlo hhi hlength hpayload, State.ccmS_nonce hhi] at hrun
  constructor
  · intro htag
    obtain ⟨t, hexec, hdone⟩ := exec_succeeds (hrun.trans (if_pos htag))
    exact ⟨t, _, hexec, hdone, hlength, hpayload⟩
  · intro htag
    exact exec_fails (hrun.trans (if_neg htag))

/-- Settles O50: the second state's message is what `ccmSeal` answered, and `ccmOpen` undoes it; beyond IN the capacity
check comes first. -/
theorem ccmRoundTrip : Obligations.CcmRoundTrip := by
  intro s s' t hready hexec hkey hkeyLen hivLen haadLen hiv haad hdataLen hin
  refine ⟨fun hfits => ?_, fun hover => exec_capIn .ccmDec (hdataLen ▸ hover)⟩
  have hpeer : CcmPeer s s' := ⟨hkey, hkeyLen, hivLen, haadLen, hiv⟩
  have hdone : Succeeded s t (ccmSeal s.key s.nonce s.message s.assocData) :=
    succeeded_of_exec (runOf_ready hready) hexec
  have hn : s'.dataLen.toNat = s.dataLen.toNat + 16 := by
    rw [hdataLen, hdone.outLen, ccmSeal_length, s.message_length]
  have hmessage : s'.message = ccmSeal s.key s.nonce s.message s.assocData :=
    message_eq_ccmSeal hdone hn fun i hi => hin i (by rwa [← hdataLen, hn])
  have hrun : runOf .ccmDec s' = .ok s.message := by
    rw [hpeer.runOf_ccmDec hready hn (by rwa [CapIn, hdataLen]), hmessage, hpeer.assocData haad, ccmOpen_ccmSeal]
  obtain ⟨t', hexec', hdone'⟩ := exec_succeeds hrun
  exact ⟨t', _, hexec', hdone', s.message_length, fun i hi => s.message_getD i (s.message_length ▸ hi)⟩

/-- Settles O51: IN holds a payload part and a tag part; whichever part or associated data changed, `ccmOpen` answers
AUTH, since no MAC misses a change inside one chunk (`macChunks_ne`, by induction on the chunks). -/
theorem ccmTamperDetection : Obligations.CcmTamperDetection := by
  intro s s' t hready hexec hkey hkeyLen hivLen haadLen hiv hdataLen hfits
  have hpeer : CcmPeer s s' := ⟨hkey, hkeyLen, hivLen, haadLen, hiv⟩
  have hdone : Succeeded s t (ccmSeal s.key s.nonce s.message s.assocData) :=
    succeeded_of_exec (runOf_ready hready) hexec
  have hn : s'.dataLen.toNat = s.dataLen.toNat + 16 := by
    rw [hdataLen, hdone.outLen, ccmSeal_length, s.message_length]
  have auth := hpeer.exec_auth hready hn (by rwa [CapIn, hdataLen])
  refine ⟨?tag, ?payload, ?aad⟩
  case tag =>
    rintro haad hC ⟨i, hlo, hhi, hne⟩
    exact auth (ccmOpen_auth_of_tag_changed hdone hpeer hn haad hC hlo hhi hne)
  case payload =>
    rintro q haad hU hC ⟨i, hi, hne⟩
    exact auth (ccmOpen_auth_of_payload_changed hdone hpeer hn haad hU hC hi hne)
  case aad =>
    rintro q hin haad ⟨i, hi, hne⟩
    exact auth (ccmOpen_auth_of_aad_changed hdone hpeer hn hin haad hi hne)

/-- Settles O52: byte 0 is the flags byte in B0 and `L - 1` in a counter block. -/
theorem seedBlockIsNoCounterBlock : Obligations.SeedBlockIsNoCounterBlock := by
  intro nonce nonce' plen i h hlo hhi hlo' hhi'
  have hseed : 0x38 ≤ ((ccmB0 nonce plen h)[0]).toNat := by
    have hfirst : (ccmB0 nonce plen h)[0] = ccmFlags h (ccmL nonce.length) :=
      formattedBlock_getElem _ (by omega) plen (by decide)
    rw [hfirst, ccmL, ccmFlags_eq h (by omega) (by omega), BitVec.toNat_ofNat]
    split <;> omega
  have hcounter : ((ccmCounterBlock nonce' i)[0]).toNat ≤ 7 := by
    have hfirst : (ccmCounterBlock nonce' i)[0] = BitVec.ofNat 8 (ccmL nonce'.length - 1) :=
      formattedBlock_getElem _ (by omega) i (by decide)
    rw [hfirst, ccmL, BitVec.toNat_ofNat]
    omega
  refine ⟨hseed, hcounter, fun heq => ?_⟩
  rw [heq] at hseed
  omega

/-- Settles O53: each counter fits the counter field, so it can be read from its block (`ccmCounterBlock_inj`). -/
theorem counterBlocksAreDistinct : Obligations.CounterBlocksAreDistinct := by
  intro nonce plen i j _ hhi hplen hi hj
  have hpow : 2 ^ (8 * (15 - nonce.length)) = 256 ^ (15 - nonce.length) := Nat.pow_mul 2 8 _
  have hlast : (plen + 15) / 16 ≤ plen := by omega
  exact ccmCounterBlock_inj (by omega) (by omega) (by omega)

/-- Settles O55: each clause is one branch of `runOf_ccm`. -/
theorem ccmChecks : Obligations.CcmChecks := by
  intro s c plen hc
  have hrun := runOf_ccm hc
  refine ⟨exec_capIn c, fun hin haad => ?_, fun hin haad hkey => ?_, fun hin haad hkey hnonce => ?_,
    fun hin haad hkey hlo hhi hdec hshort => ?_, fun hin haad hkey hlo hhi hdec hlong => ?_⟩
  all_goals rw [if_neg (Nat.not_lt.2 hin)] at hrun
  · exact exec_fails (hrun.trans (if_pos haad))
  all_goals rw [if_neg (Nat.not_lt.2 haad)] at hrun
  · exact exec_fails (hrun.trans (if_pos hkey))
  all_goals rw [if_neg (not_not.2 hkey)] at hrun
  · exact exec_fails (hrun.trans (if_pos hnonce))
  · rw [if_neg (by omega)] at hrun
    exact exec_fails (hrun.trans (if_pos ⟨hdec, hshort⟩))
  · exact exec_fails ((runOf_ccm_msgLen_iff hc).2 ⟨hin, haad, hkey, hlo, hhi, hdec, hlong⟩)

/-- Settles O56: MSGLEN is reported exactly where the last check fails (`runOf_ccm_msgLen_iff`), and that check can fail
for L = 2 only (`two_pow_le_payload_iff`). -/
theorem msgLenNeedsThirteenByteNonce : Obligations.MsgLenNeedsThirteenByteNonce := by
  intro s t c plen hc hexec
  have hplen : plen ≤ s.dataLen.toNat := by omega
  have hnonce : s.ivLen = 13 ↔ s.ivLen.toNat = 13 := BitVec.toNat_inj.symm
  rw [exec_reports_msgLen_iff hexec, runOf_ccm_msgLen_iff hc, hnonce]
  constructor
  · rintro ⟨hin, haad, hkey, hlo, hhi, -, hlong⟩
    obtain ⟨hN, hover⟩ := (two_pow_le_payload_iff hlo hhi (hplen.trans hin)).1 hlong
    exact ⟨hin, haad, hkey, hN, hover⟩
  · rintro ⟨hin, haad, hkey, hN, hover⟩
    have hlong := (two_pow_le_payload_iff (by omega) (by omega) (hplen.trans hin)).2 ⟨hN, hover⟩
    exact ⟨hin, haad, hkey, by omega, by omega, fun _ => by omega, hlong⟩

end Sys2Proof.Proofs
end

section
/-! SUPPORT. Errors on a state (60_exceptions.md R170 to R182): the checks of the CBC and CTR commands in their order,
the commands that can raise each error, and what a completion step can leave. -/

namespace Sys2Proof.Machine

/-! ### The checks of the CBC and CTR commands -/

/-- 60_exceptions.md R177: the commands of CBC and CTR, whose IV is a whole block. -/
abbrev UsesWholeIv (c : Instr) : Prop := c = .cbcEnc ∨ c = .cbcDec ∨ c = .ctrEnc ∨ c = .ctrDec

/-- 60_exceptions.md R177: the checks of the four commands, in their order; the alignment is CBC_DEC's alone. -/
theorem runOf_wholeIv {c : Instr} (hc : UsesWholeIv c) (s : State) :
    runOf c s =
      if Config.inMax < s.dataLen.toNat then .error (.length .capIn)
      else if s.keyLen ≠ 16 then .error .cipherInit
      else if s.ivLen ≠ 16 then .error (.length .ivLen)
      else if c = .cbcDec ∧ s.dataLen.toNat % 16 ≠ 0 then .error (.length .dataAlign)
      else resultOf c s := by
  have hkey := s.keyLength_eq_iff
  have hiv := s.ivLength_eq_iff
  rcases hc with rfl | rfl | rfl | rfl
  case inr.inl =>
    simp only [runOf, runCbcDec, ne_eq, hkey, hiv, true_and]
    rfl
  all_goals
    simp only [runOf, runCbcEnc, runCtrEnc, runCtrDec, ctrCommand, ne_eq, hkey, hiv, reduceCtorEq, false_and, if_false]
    rfl

/-! ### Which command raises which error -/

/-- 60_exceptions.md R170: the rows of the table of codes, by the commands that raise each error. ILLEGAL_CMD is of no
command. -/
def CmdError.RaisedBy : CmdError → Instr → Prop
  | .cipherInit, c => c ≠ .pad ∧ c ≠ .unpad ∧ c ≠ .xor
  | .length _, _ => True
  | .padding, c => c = .unpad ∨ c = .cbcDec
  | .auth, c => c = .ccmDec
  | .illegalCmd _, _ => False

theorem unpad16_error {x : List Byte} {e : CmdError} (h : unpad16 x = .error e) : e = .padding := by
  rcases unpad16_cases x with ⟨p, _, _, _, _, _, hok⟩ | herr
  · exact absurd (h.symm.trans hok) nofun
  · exact Except.error.inj (h.symm.trans herr)

/-- 60_exceptions.md R173, R174: past its checks a command can raise PADDING where it unpads and AUTH where it compares
tags. -/
theorem resultOf_error_raisedBy {c : Instr} {s : State} {e : CmdError} (h : resultOf c s = .error e) :
    e.RaisedBy c := by
  cases c
  case unpad => exact unpad16_error h ▸ .inl rfl
  case cbcDec => exact unpad16_error h ▸ .inr rfl
  case ccmDec => exact resultOf_ccm_error (.inr rfl) h ▸ rfl
  all_goals exact absurd h nofun

theorem runOf_wholeIv_error_raisedBy {c : Instr} (hc : UsesWholeIv c) {s : State} {e : CmdError}
    (h : runOf c s = .error e) : e.RaisedBy c := by
  have hinit : CmdError.cipherInit.RaisedBy c := by
    rcases hc with rfl | rfl | rfl | rfl <;> exact ⟨nofun, nofun, nofun⟩
  rw [runOf_wholeIv hc] at h
  split_ifs at h
  · cases h; trivial
  · cases h; exact hinit
  · cases h; trivial
  · cases h; trivial
  · exact resultOf_error_raisedBy h

theorem runOf_ccm_error_raisedBy {c : Instr} {s : State} {plen : Nat} (hc : CcmPayloadLength c s plen) {e : CmdError}
    (h : runOf c s = .error e) : e.RaisedBy c := by
  have hinit : CmdError.cipherInit.RaisedBy c := by
    rcases hc with ⟨rfl, -⟩ | ⟨rfl, -⟩ <;> exact ⟨nofun, nofun, nofun⟩
  rw [runOf_ccm hc] at h
  split_ifs at h
  · cases h; trivial
  · cases h; trivial
  · cases h; exact hinit
  · cases h; trivial
  · cases h; trivial
  · cases h; trivial
  · exact resultOf_error_raisedBy h

/-- 60_exceptions.md R170 to R174: every error of a command stands in a row that names the command. -/
theorem runOf_error_raisedBy {c : Instr} {s : State} {e : CmdError} (h : runOf c s = .error e) : e.RaisedBy c := by
  cases c
  case pad =>
    simp only [runOf, runPad] at h
    split_ifs at h
    cases h; trivial
  case unpad =>
    simp only [runOf, runUnpad] at h
    split_ifs at h
    · cases h; trivial
    · exact resultOf_error_raisedBy h
  case xor =>
    simp only [runOf, runXor] at h
    split_ifs at h
    · cases h; trivial
    · cases h; trivial
  case cbcEnc | cbcDec | ctrEnc | ctrDec => exact runOf_wholeIv_error_raisedBy (by decide) h
  case ccmEnc => exact runOf_ccm_error_raisedBy (.inl ⟨rfl, rfl⟩) h
  case ccmDec => exact runOf_ccm_error_raisedBy (.inr ⟨rfl, rfl⟩) h

/-! ### The completion step -/

theorem complete_legal {s : State} {c : Instr} (h : decode s.latch = .ok c) : complete s = exec c s := by
  simp only [complete, h]

/-- 60_exceptions.md R180 to R182: a completion is a command's success, a command's error, or ILLEGAL_CMD. -/
theorem complete_cases {s t : State} (h : complete s = .next t) :
    (∃ (c : Instr) (y : List Byte), decode s.latch = .ok c ∧ Succeeded s t y) ∨
    (∃ (c : Instr) (e : CmdError), decode s.latch = .ok c ∧ e.RaisedBy c ∧ Failed s t e.code e.info) ∨
    (∃ why, decode s.latch = .error why ∧ Failed s t 5 (illegalInfo why)) := by
  rcases hd : decode s.latch with why | c
  · rw [complete_illegal hd] at h
    cases h
    exact .inr (.inr ⟨why, rfl, s.commitError_failed (.illegalCmd why)⟩)
  · rw [complete_legal hd] at h
    rcases exec_cases h with ⟨y, -, hdone⟩ | ⟨e, hrun, hdone⟩
    · exact .inl ⟨c, y, rfl, hdone⟩
    · exact .inr (.inl ⟨c, e, rfl, runOf_error_raisedBy hrun, hdone⟩)

/-- The code and subcode of an error completion are those that STATUS holds after it. -/
theorem Failed.of_status {s t : State} {code info : BitVec 4} (h : Failed s t code info) :
    Failed s t t.errcode t.errinfo := by
  rw [h.errcode, h.errinfo]
  exact h

theorem complete_answers (s : State) : ∃ t, complete s = .next t := by
  rcases complete_eq_commit s with ⟨_, -, h⟩ | ⟨_, -, h⟩ <;> exact ⟨_, h⟩

end Sys2Proof.Machine
end

section
/-! SUPPORT. The statements about completions and their errors (60_exceptions.md), settled. -/

open Sys2Proof Sys2Proof.Machine

namespace Sys2Proof.Proofs

/-- Settles O54: each clause is one branch of `runOf_wholeIv`. -/
theorem cipherCommandChecks : Obligations.CipherCommandChecks := by
  intro s c hc
  have hrun := runOf_wholeIv hc s
  refine ⟨exec_capIn c, fun hin hkey => ?_, fun hin hkey hiv => ?_, fun hin hkey hiv hdec hdata => ?_⟩
  all_goals rw [if_neg (Nat.not_lt.2 hin)] at hrun
  · exact exec_fails (hrun.trans (if_pos hkey))
  all_goals rw [if_neg (not_not.2 hkey)] at hrun
  · exact exec_fails (hrun.trans (if_pos hiv))
  · rw [if_neg (not_not.2 hiv)] at hrun
    exact exec_fails (hrun.trans (if_pos ⟨hdec, hdata⟩))

/-- Settles O57: a completion with ERR set is no success, and each of the two kinds of error leaves the whole frame. -/
theorem errorsArePrecise : Obligations.ErrorsArePrecise := by
  intro s t h herr
  rcases complete_cases h with ⟨_, _, -, hdone⟩ | ⟨_, _, -, -, hdone⟩ | ⟨_, -, hdone⟩
  · exact absurd (herr.symm.trans hdone.err) nofun
  · exact hdone.of_status
  · exact hdone.of_status

/-- Settles O58: the error of a command stands in one of R170's rows (`runOf_error_raisedBy`), by its kind. -/
theorem errorCodesPerCommand : Obligations.ErrorCodesPerCommand := by
  intro s t h
  rcases complete_cases h with ⟨c, _, hd, hdone⟩ | ⟨c, e, hd, hrow, hdone⟩ | ⟨why, hd, hdone⟩
  · exact ⟨fun _ => ⟨hdone.errcode, c, hd⟩, fun herr => absurd (herr.symm.trans hdone.err) nofun⟩
  · refine ⟨fun hok => absurd (hok.symm.trans hdone.err) nofun, fun _ => ?_⟩
    have hcode := hdone.errcode
    cases e with
    | cipherInit => exact .inl ⟨hcode, c, hd, hrow⟩
    | length cause => exact .inr (.inl ⟨hcode, c, hd⟩)
    | padding =>
      rcases hrow with rfl | rfl
      · exact .inr (.inr (.inl ⟨hcode, .inl hd⟩))
      · exact .inr (.inr (.inl ⟨hcode, .inr hd⟩))
    | auth => exact .inr (.inr (.inr (.inl ⟨hcode, hrow ▸ hd⟩)))
    | illegalCmd why => exact hrow.elim
  · exact ⟨fun hok => absurd (hok.symm.trans hdone.err) nofun,
      fun _ => .inr (.inr (.inr (.inr ⟨hdone.errcode, why, hd⟩)))⟩

/-- Settles O59: OUT_LEN is the length of the output, which fits OUT (`runOf_ok_length`), or 0. -/
theorem outputFitsOut : Obligations.OutputFitsOut := by
  intro c s t h
  rcases exec_cases h with ⟨y, hrun, hdone⟩ | ⟨e, -, hdone⟩
  · exact ⟨hdone.outLen ▸ runOf_ok_length hrun, fun herr => absurd (herr.symm.trans hdone.err) nofun⟩
  · exact ⟨by simp [hdone.outLen], fun _ => hdone.outLen⟩

/-- Settles O4: the step is the completion, which runs what LATCH decodes to. -/
theorem stepRunsTheLatchedCommand : Obligations.StepRunsTheLatchedCommand :=
  fun _ _ hb hdue hd => (step_complete hb hdue).trans (complete_legal hd)

/-- Settles O6: the engine's step is a completion, which always answers; otherwise the machine makes the host's next
move, or stays as it is where there is none. -/
theorem everyStepAnswersNext : Obligations.EveryStepAnswersNext := by
  intro s
  unfold step
  split
  · exact complete_answers s
  · split
    · exact ⟨s, rfl⟩
    · exact ⟨_, rfl⟩

end Sys2Proof.Proofs
end

section
/-! SUPPORT. Reset and the end of a command (70_reset_and_hazards.md R195 to R204): the bytes after a reset, what a host
move leaves of the moves behind it, and the two ways a BUSY phase ends. -/

namespace Sys2Proof.Machine

/-! ### The bytes after a reset -/

/-- 10_state.md R41 to R43: where nothing has been written, every byte of IN, AAD and OUT is the one drawn. -/
theorem State.ramByte_of_mem_nil {s : State} (h : s.mem = []) (a : Nat) : s.ramByte a = Config.drawnByte s.epoch a := by
  rw [State.ramByte, h]
  rfl

/-- A store of sixteen zero bytes reads as such. -/
theorem getD_replicate_zero (i : Nat) : ((Vector.replicate 16 (0 : Byte))[i]?).getD 0 = 0 := by
  rw [Vector.getElem?_replicate]
  split <;> rfl

theorem State.reset_memRead_zero {S : Store} (h : S = .key ∨ S = .iv) :
    State.reset.memRead S 0 16 = List.replicate 16 0 := by
  refine State.memRead_eq List.length_replicate fun i hi => ?_
  have hbyte : State.reset.storeByte S i = 0 := by
    rcases h with rfl | rfl <;> exact getD_replicate_zero i
  rw [hbyte, List.getD_replicate _ hi]

/-! ### The host's coming moves -/

theorem State.laneWrite_host (s : State) (o : Nat) (b : Byte) : (s.laneWrite o b).host = s.host := by
  rcases s.laneWrite_cases o b with e | ⟨S, i, -, -, -, e⟩ <;> rw [e]
  exact s.setStoreByte_host S i b

theorem State.lanesWrite_host (s : State) (o : Nat) (w : Word) : (s.lanesWrite o w).host = s.host := by
  simp only [State.lanesWrite, State.laneWrite_host]

/-- No bus write reaches the host's own moves. -/
theorem State.busWrite_host (s : State) (off : Offset) (w : Word) : (s.busWrite off w).host = s.host := by
  rcases s.busWrite_cases off w with
    e | ⟨_, e⟩ | ⟨_, _, e⟩ | ⟨_, e⟩ | ⟨_, e⟩ | ⟨_, e⟩ | ⟨_, e⟩ | ⟨_, e⟩ | ⟨_, e⟩ <;> rw [e]
  · exact s.dropWrite_host
  · exact s.accept_host w
  · rw [State.statusWrite_eq]
  · exact s.lanesWrite_host _ w

/-- 30_encoding.md R84: a move leaves the moves behind it, and WAIT can stay before them. -/
theorem State.hostMove_host_subset (s : State) (m : HostMove) (rest : List HostMove) :
    (s.hostMove m rest).host ⊆ m :: rest := by
  cases m with
  | read off => exact List.subset_cons_self _ rest
  | reset => exact List.subset_cons_self _ rest
  | write off w =>
    simp only [State.hostMove, State.busWrite_host, State.takeMove_host]
    exact List.subset_cons_self _ rest
  | wait =>
    simp only [State.hostMove, State.takeMove_host]
    split
    · exact List.Subset.refl _
    · exact List.subset_cons_self _ rest

/-! ### The end of a BUSY phase -/

theorem SameSnapshot.refl (s : State) : SameSnapshot s s :=
  ⟨rfl, rfl, rfl, rfl, rfl, rfl, fun _ _ => rfl, fun _ _ => rfl⟩

theorem SameSnapshot.trans {s t u : State} (h : SameSnapshot s t) (h' : SameSnapshot t u) : SameSnapshot s u where
  keyLen := h'.keyLen.trans h.keyLen
  ivLen := h'.ivLen.trans h.ivLen
  dataLen := h'.dataLen.trans h.dataLen
  aadLen := h'.aadLen.trans h.aadLen
  key := h'.key.trans h.key
  iv := h'.iv.trans h.iv
  inp := fun i hi => (h'.inp i hi).trans (h.inp i hi)
  aad := fun i hi => (h'.aad i hi).trans (h.aad i hi)

/-- 60_exceptions.md R181, R182: a completion, success or error, ends in IDLE with DONE. -/
theorem complete_ends {s t : State} (h : complete s = .next t) : t.busy = false ∧ t.done = true := by
  rcases complete_cases h with ⟨_, _, -, hdone⟩ | ⟨_, _, -, -, hdone⟩ | ⟨_, -, hdone⟩
  all_goals exact ⟨hdone.busy, hdone.done⟩

/-- 70_reset_and_hazards.md R197, R203: `t` ends the BUSY phase that `s` is in. Where no reset is to come it does so as
the completion of the command that runs in `s`, on that command's word and snapshot. -/
structure EndsCommand (s t : State) : Prop where
  busy : t.busy = false
  completion : .reset ∉ s.host → t.done = true ∧
    ∃ u : State, u.busy = true ∧ u.latch = s.latch ∧ SameSnapshot s u ∧ complete u = .next t

theorem EndsCommand.of_complete {s t : State} (hb : s.busy = true) (h : complete s = .next t) : EndsCommand s t :=
  have ⟨hbusy, hdone⟩ := complete_ends h
  ⟨hbusy, fun _ => ⟨hdone, s, hb, rfl, .refl s, h⟩⟩

theorem EndsCommand.of_reset {s : State} {rest : List HostMove} (hh : s.host = .reset :: rest) :
    EndsCommand s (s.hostMove .reset rest) :=
  ⟨rfl, fun h => absurd (hh ▸ List.mem_cons_self) h⟩

/-- 10_state.md R45: what ends the command after a move that held it ends the same command. -/
theorem EndsCommand.of_held {s s' t : State} (held : CommandHeld s s') (hhost : s'.host ⊆ s.host)
    (h : EndsCommand s' t) : EndsCommand s t where
  busy := h.busy
  completion := fun hreset => by
    obtain ⟨hdone, u, hu, hlatch, hsnap, hcomplete⟩ := h.completion fun hmem => hreset (hhost hmem)
    exact ⟨hdone, u, hu, hlatch.trans held.latch, held.sameSnapshot.trans hsnap, hcomplete⟩

/-- A step is a run of length one. -/
theorem core_run_one {s t : State} (h : step s = .next t) : Sys2Proof.core.run 1 s = .next t :=
  core_run_succ 0 h

/-- 70_reset_and_hazards.md R203: where the lag has run out or the host has no more moves, the next step completes the
command. -/
theorem run_one_endsCommand {s : State} (hb : s.busy = true) (hdue : s.lag = 0 ∨ s.host = []) :
    ∃ t, Sys2Proof.core.run 1 s = .next t ∧ EndsCommand s t := by
  obtain ⟨t, ht⟩ := complete_answers s
  exact ⟨t, core_run_one ((step_complete hb hdue).trans ht), .of_complete hb ht⟩

/-- 70_reset_and_hazards.md R203: each move that goes before the completion takes one from the lag, so a completion or
a reset comes within lag + 1 steps. -/
theorem run_endsCommand {n : Nat} {s : State} (hb : s.busy = true) (hlag : s.lag = n) :
    ∃ (k : Nat) (t : State), k ≤ n + 1 ∧ Sys2Proof.core.run k s = .next t ∧ EndsCommand s t := by
  induction n generalizing s with
  | zero => exact ⟨1, (run_one_endsCommand hb (.inl hlag)).imp fun _ h => ⟨Nat.le_refl 1, h⟩⟩
  | succ n ih =>
    rcases hh : s.host with _ | ⟨m, rest⟩
    · exact ⟨1, (run_one_endsCommand hb (.inr hh)).imp fun _ h => ⟨Nat.le_add_left 1 _, h⟩⟩
    have hstep := step_hostMove (.inr (hlag ▸ Nat.succ_ne_zero n)) hh
    by_cases hm : m = .reset
    · subst hm
      exact ⟨1, _, Nat.le_add_left 1 _, core_run_one hstep, .of_reset hh⟩
    · have held := State.hostMove_busy hb hm rest
      obtain ⟨k, t, hk, hrun, hend⟩ := ih (held.busy.trans hb) (by rw [held.lag, hlag]; rfl)
      exact ⟨k + 1, t, Nat.succ_le_succ hk, (core_run_succ k hstep).trans hrun,
        hend.of_held held (hh ▸ s.hostMove_host_subset m rest)⟩

end Sys2Proof.Machine
end

section
/-! SUPPORT. The statements about reset and hazards (70_reset_and_hazards.md), settled. -/

open Sys2Proof Sys2Proof.Machine

namespace Sys2Proof.Proofs

/-- Settles O7, by induction on the lag (`run_endsCommand`). -/
theorem acceptedCommandCompletes : Obligations.AcceptedCommandCompletes := by
  intro s hb
  obtain ⟨k, t, hk, hrun, hend⟩ := run_endsCommand hb rfl
  exact ⟨k, t, hk, hrun, hend.busy, hend.completion⟩

/-- Settles O29: the step is the pulse, whose registers are those of `State.reset` and whose memory lists nothing. -/
theorem resetAbandonsTheCommand : Obligations.ResetAbandonsTheCommand := by
  intro s rest h hh
  have hbytes := State.ramByte_of_mem_nil (s := (s.takeMove rest).resetPulse) rfl
  refine ⟨(s.takeMove rest).resetPulse, step_hostMove h hh, ?_⟩
  simp [hbytes]

/-- Settles O28: the registers by the reset values, the read of STATUS by its register, the bytes of KEY and IV by the
stores' own, and those of IN, AAD and OUT by an empty memory. -/
theorem resetHoldsTheStatedValues : Obligations.ResetHoldsTheStatedValues :=
  ⟨rfl, State.reset.busRead_reg .status, rfl, rfl, rfl, rfl, rfl, State.reset_memRead_zero (.inl rfl),
    State.reset_memRead_zero (.inr rfl), State.ramByte_of_mem_nil rfl⟩

end Sys2Proof.Proofs
end
